-- ==== Sys2Proof/Word.lean ====
section
/-! DEFINITION. The value types of spec/00_scope.md rules R10 and R13: bytes, 32-bit words, 4-bit fields, and the two
fixed byte tuples of the data model, a 16-byte block and a 4-byte word of the expanded key. -/

namespace Sys2Proof

/-- An unsigned 8-bit value (R13); also an element of GF(2^8) (R110). -/
abbrev Byte := BitVec 8

/-- A 32-bit control register value, command word or host address (R10, R70). -/
abbrev Word := BitVec 32

/-- A 4-bit value: `NR` and the error code (R10). -/
abbrev Nibble := BitVec 4

/-- 16 bytes: the state register, or a block of the buffer (R20, R61). -/
abbrev Block := Vector Byte 16

/-- One word of the expanded key: 4 bytes, "never treated as a number" (R64). -/
abbrev KeyWord := Vector Byte 4

/-- The 60 words of the expanded key memory (R24). -/
abbrev KeyMemory := Vector KeyWord 60

end Sys2Proof
end

