-- ==== Sys2Proof/Syntax.lean ====
section
/-! DEFINITION. The commands of the set `KCMD-1`, one constructor for each row of spec/opcode_table.json, in the order of
spec/30_encoding.md rule R93. -/

namespace Sys2Proof

/-- A command. `GFMUL` carries its two operand bytes, `ADDROUNDKEY` its round index; no other command has an operand
(R92). -/
inductive Instr where
  | gfmul (a b : Byte)
  | subbytes
  | invsubbytes
  | shiftrows
  | invshiftrows
  | mixcolumns
  | invmixcolumns
  | addroundkey (r : Nat)
  | expandkey
  | encblk
  | decblk
  | pad
  | unpad
  | ldblk
  | stblk
  | streamenc
  | streamdec
  | rawdec
  | clrerr
  | sreset
  deriving DecidableEq, Repr

/-- The row's mnemonic in the table of R93. -/
def Instr.mnemonic : Instr → String
  | .gfmul _ _ => "GFMUL"
  | .subbytes => "SUBBYTES"
  | .invsubbytes => "INVSUBBYTES"
  | .shiftrows => "SHIFTROWS"
  | .invshiftrows => "INVSHIFTROWS"
  | .mixcolumns => "MIXCOLUMNS"
  | .invmixcolumns => "INVMIXCOLUMNS"
  | .addroundkey _ => "ADDROUNDKEY"
  | .expandkey => "EXPANDKEY"
  | .encblk => "ENCBLK"
  | .decblk => "DECBLK"
  | .pad => "PAD"
  | .unpad => "UNPAD"
  | .ldblk => "LDBLK"
  | .stblk => "STBLK"
  | .streamenc => "STREAMENC"
  | .streamdec => "STREAMDEC"
  | .rawdec => "RAWDEC"
  | .clrerr => "CLRERR"
  | .sreset => "SRESET"

/-- The stream-class commands run the block loop and emit events (R18). -/
def Instr.isStream : Instr → Bool
  | .streamenc | .streamdec | .rawdec => true
  | .gfmul _ _ | .subbytes | .invsubbytes | .shiftrows | .invshiftrows | .mixcolumns | .invmixcolumns | .addroundkey _
  | .expandkey | .encblk | .decblk | .pad | .unpad | .ldblk | .stblk | .clrerr | .sreset => false

end Sys2Proof
end

