-- ==== Sys2Proof/WellFormed.lean ====
section
/-! DEFINITION. Which commands have an encoding: spec/30_encoding.md rules R90 and R92. -/

namespace Sys2Proof

/-- The round index of `ADDROUNDKEY` is the field `A`, an unsigned byte: 0..255 (R92). The operands of `GFMUL` are bytes
by their type, and no other command has an operand. -/
def Instr.wellFormed : Instr → Bool
  | .addroundkey r => decide (r < 256)
  | .gfmul _ _ | .subbytes | .invsubbytes | .shiftrows | .invshiftrows | .mixcolumns | .invmixcolumns | .expandkey
  | .encblk | .decblk | .pad | .unpad | .ldblk | .stblk | .streamenc | .streamdec | .rawdec | .clrerr | .sreset => true

end Sys2Proof
end

