-- ==== Sys2Proof/Decode.lean ====
section
/-! DEFINITION. The command format `CMD32`, the decoder, total on every 32-bit word, and the encoder: spec/30_encoding.md
rules R90 to R95. The core stores no program (R76), so what is decoded is the word written to `CMD`. -/

namespace Sys2Proof

/-- Why a word is illegal (R94). -/
inductive Illegal where
  /-- `Z`, bits 31:24, is not zero. -/
  | reservedZ
  /-- `OP` is not one of the 20 opcodes. -/
  | unknownOpcode
  /-- `B` is not zero on a command that takes fewer than two operands. -/
  | operandB
  /-- `A` is not zero on a command that takes no operand. -/
  | operandA
  deriving DecidableEq, Repr

/-- `OP`, bits 7:0 (R90). -/
def fieldOp (w : Word) : Byte := w.extractLsb' 0 8

/-- `A`, bits 15:8 (R90). -/
def fieldA (w : Word) : Byte := w.extractLsb' 8 8

/-- `B`, bits 23:16 (R90). -/
def fieldB (w : Word) : Byte := w.extractLsb' 16 8

/-- `Z`, bits 31:24 (R90). -/
def fieldZ (w : Word) : Byte := w.extractLsb' 24 8

/-- A command that takes no operand: `A` and `B` must be zero (R90, R94). -/
def noOperand (a b : Byte) (i : Instr) : Except Illegal Instr :=
  if b ≠ 0 then .error .operandB else if a ≠ 0 then .error .operandA else .ok i

/-- A command that takes the one operand `A`: `B` must be zero (R90, R94). -/
def oneOperand (a b : Byte) (i : Byte → Instr) : Except Illegal Instr :=
  if b ≠ 0 then .error .operandB else .ok (i a)

/-- The opcode map (R93), and the operand fields each command takes (R92). -/
def decodeFields (op a b : Byte) : Except Illegal Instr :=
  match op with
  | 0x01#8 => .ok (.gfmul a b)
  | 0x10#8 => noOperand a b .subbytes
  | 0x11#8 => noOperand a b .invsubbytes
  | 0x12#8 => noOperand a b .shiftrows
  | 0x13#8 => noOperand a b .invshiftrows
  | 0x14#8 => noOperand a b .mixcolumns
  | 0x15#8 => noOperand a b .invmixcolumns
  | 0x16#8 => oneOperand a b fun r => .addroundkey r.toNat
  | 0x20#8 => noOperand a b .expandkey
  | 0x30#8 => noOperand a b .encblk
  | 0x31#8 => noOperand a b .decblk
  | 0x40#8 => noOperand a b .pad
  | 0x41#8 => noOperand a b .unpad
  | 0x50#8 => noOperand a b .ldblk
  | 0x51#8 => noOperand a b .stblk
  | 0x60#8 => noOperand a b .streamenc
  | 0x61#8 => noOperand a b .streamdec
  | 0x62#8 => noOperand a b .rawdec
  | 0xF0#8 => noOperand a b .clrerr
  | 0xFF#8 => noOperand a b .sreset
  | _ => .error .unknownOpcode

/-- The decoder: the command a word stands for, or why it is illegal (R94). -/
def decode (w : Word) : Except Illegal Instr :=
  if fieldZ w ≠ 0 then .error .reservedZ else decodeFields (fieldOp w) (fieldA w) (fieldB w)

/-- The pattern string of R91, most significant byte first: `Z = 0`, `B`, `A`, `OP`. -/
def packWord (op a b : Byte) : Word := 0x00#8 ++ b ++ a ++ op

/-- The opcode of a command (R93). -/
def opcode : Instr → Byte
  | .gfmul _ _ => 0x01
  | .subbytes => 0x10
  | .invsubbytes => 0x11
  | .shiftrows => 0x12
  | .invshiftrows => 0x13
  | .mixcolumns => 0x14
  | .invmixcolumns => 0x15
  | .addroundkey _ => 0x16
  | .expandkey => 0x20
  | .encblk => 0x30
  | .decblk => 0x31
  | .pad => 0x40
  | .unpad => 0x41
  | .ldblk => 0x50
  | .stblk => 0x51
  | .streamenc => 0x60
  | .streamdec => 0x61
  | .rawdec => 0x62
  | .clrerr => 0xF0
  | .sreset => 0xFF

/-- The field `A` of a command's word (R92). -/
def operandA : Instr → Byte
  | .gfmul a _ => a
  | .addroundkey r => BitVec.ofNat 8 r
  | .subbytes | .invsubbytes | .shiftrows | .invshiftrows | .mixcolumns | .invmixcolumns | .expandkey | .encblk
  | .decblk | .pad | .unpad | .ldblk | .stblk | .streamenc | .streamdec | .rawdec | .clrerr | .sreset => 0

/-- The field `B` of a command's word (R92). -/
def operandB : Instr → Byte
  | .gfmul _ b => b
  | .addroundkey _ | .subbytes | .invsubbytes | .shiftrows | .invshiftrows | .mixcolumns | .invmixcolumns | .expandkey
  | .encblk | .decblk | .pad | .unpad | .ldblk | .stblk | .streamenc | .streamdec | .rawdec | .clrerr | .sreset => 0

/-- The encoder: the word of a command (R91, R93). -/
def encode (i : Instr) : Word := packWord (opcode i) (operandA i) (operandB i)

/-- One row of the table of R93: a word `w` selects it iff `w & mask = pattern`. -/
structure OpcodeRow where
  mnemonic : String
  pattern : Word
  mask : Word
  deriving DecidableEq, Repr

/-- A word selects a row (R93). -/
def OpcodeRow.selects (row : OpcodeRow) (w : Word) : Bool := w &&& row.mask == row.pattern

/-- The `match` and `mask` columns of the table of R93, row by row. The decoder does not read it: it is here for the
statements that compare the two readings. -/
def opcodeTable : List OpcodeRow :=
  [⟨"GFMUL", 0x00000001, 0xFF0000FF⟩,
   ⟨"SUBBYTES", 0x00000010, 0xFFFFFFFF⟩,
   ⟨"INVSUBBYTES", 0x00000011, 0xFFFFFFFF⟩,
   ⟨"SHIFTROWS", 0x00000012, 0xFFFFFFFF⟩,
   ⟨"INVSHIFTROWS", 0x00000013, 0xFFFFFFFF⟩,
   ⟨"MIXCOLUMNS", 0x00000014, 0xFFFFFFFF⟩,
   ⟨"INVMIXCOLUMNS", 0x00000015, 0xFFFFFFFF⟩,
   ⟨"ADDROUNDKEY", 0x00000016, 0xFFFF00FF⟩,
   ⟨"EXPANDKEY", 0x00000020, 0xFFFFFFFF⟩,
   ⟨"ENCBLK", 0x00000030, 0xFFFFFFFF⟩,
   ⟨"DECBLK", 0x00000031, 0xFFFFFFFF⟩,
   ⟨"PAD", 0x00000040, 0xFFFFFFFF⟩,
   ⟨"UNPAD", 0x00000041, 0xFFFFFFFF⟩,
   ⟨"LDBLK", 0x00000050, 0xFFFFFFFF⟩,
   ⟨"STBLK", 0x00000051, 0xFFFFFFFF⟩,
   ⟨"STREAMENC", 0x00000060, 0xFFFFFFFF⟩,
   ⟨"STREAMDEC", 0x00000061, 0xFFFFFFFF⟩,
   ⟨"RAWDEC", 0x00000062, 0xFFFFFFFF⟩,
   ⟨"CLRERR", 0x000000F0, 0xFFFFFFFF⟩,
   ⟨"SRESET", 0x000000FF, 0xFFFFFFFF⟩]

/-- The 32-bit word of the table's numbering: the `nbits` bits of `w`, every bit above them 0. Every row of
spec/opcode_table.json has 32 bits, and a command is one word (R97), so there is no byte order to settle (R66). -/
def tableWord (nbits w : Nat) : Word := BitVec.ofNat 32 (w % 2 ^ nbits)

/-- What the decoder reads from a word of the opcode table. -/
def decodeTableWord (nbits w : Nat) : Option Instr :=
  if nbits ≤ 32 then (decode (tableWord nbits w)).toOption else none

end Sys2Proof
end

