-- ==== Sys2Proof/Config.lean ====
section
/-! DEFINITION. What the spec fixes or leaves open for one implementation (spec/00_scope.md rules R8, R9;
spec/10_state.md rule R58; spec/40_gf_and_tables.md rule R119). -/

namespace Sys2Proof.Config

/-- The progress stride in bytes (R8, R223). It is fixed, not a register. -/
def stride : Nat := 2048

/-- The `BUF_CAP` of the one state `State.reset`. R9 leaves it open: every other state carries its own in the
hard-wired field `CAP`, so a statement about every state is one about every capacity.
DESIGN CHOICE (unsafe), log entry 5: 8192, the value the spec's vectors assume. -/
def bufCap : Word := 8192

/-- What a byte of `BUF` reads as when the memory list has no entry for it. R58 leaves the power-up contents open:
`State.powerUp` takes them as an argument, and only `State.reset` has them all equal to this byte.
DESIGN CHOICE (unsafe), log entry 4. -/
def bufUnlisted : Byte := 0x00

/-- `RCON` outside 1..10: the spec gives no value (R119, `U1` of 93_implementation_defined.md) and no rule reads it.
DESIGN CHOICE (safe), log entry 7: a constant of which nothing is known. -/
opaque rconElsewhere : Nat → Byte

end Sys2Proof.Config
end

