-- ==== Sys2Proof/Machine/State.lean ====
section
/-! DEFINITION. Everything the spec gives the machine as plain data (spec/10_state.md), under the spec's own register
names; the host's side of the interface (pending accesses and their replies); the reasons a step can stop; and the state
after power-up reset. -/

namespace Sys2Proof.Machine

/-- The buffer memory as (index, byte) pairs. Its canonical form is `Memory.wf`. -/
abbrev Memory := List Host.Cell

/-- The canonical form: indexes strictly rising, and no entry equal to what an unlisted index reads as. -/
abbrev Memory.wf (m : Memory) : Prop :=
  m.Pairwise (fun c d => c.1 < d.1) ∧ ∀ c ∈ m, c.2 ≠ Config.bufUnlisted

/-- An event of the output trace `EV` (R38, R217). -/
inductive Event where
  /-- `Progress(p, t)`: `p` bytes of `t` are processed. -/
  | progress (p t : Word)
  /-- `Result(len, fb)`: the terminal event of a stream-class command that did not raise. -/
  | result (len : Word) (fb : Bool)
  /-- `Fault(code)`: the terminal event of a stream-class command that raised. -/
  | fault (code : Nibble)
  deriving DecidableEq, Repr

/-- One access of the host at a 32-bit host address (R68, R70). -/
inductive HostAccess where
  | read8 (addr : Word)
  | write8 (addr : Word) (value : Byte)
  | read32 (addr : Word)
  | write32 (addr : Word) (value : Word)
  /-- A read or write of a width other than 8 and 32 bits; every one is refused (R68). -/
  | otherWidth (bits : Nat) (addr : Word)
  deriving DecidableEq, Repr

/-- What the host gets back from one access. -/
inductive Reply where
  | byte (value : Byte)
  | word (value : Word)
  /-- A write was taken. -/
  | written
  /-- The access was refused: it returned no value and changed nothing (R68, R228). -/
  | busError
  deriving DecidableEq, Repr

/-- The state. The fields in capitals are the spec's (10_state.md); the two in small letters are the model's own and
stand for the host (log entry 1). -/
@[ext]
structure State where
  /-- `S[0..15]`, the state register, internal order (R20). -/
  S : Block
  /-- `T[0..15]`, the hidden scratch register of the column transforms (R21, R140). -/
  T : Block
  /-- `KEY[0..31]` (R22). -/
  KEY : Vector Byte 32
  /-- `KLEN`, the key length in bytes (R22). -/
  KLEN : Byte
  /-- `W[0..59]`, the expanded key (R24). -/
  W : KeyMemory
  /-- `NR`, the round count of the key held (R24). -/
  NR : Nibble
  /-- `WVALID`: an expanded key is held (R24, R29). -/
  WVALID : Bool
  /-- `GFRES`, the result of the last `GFMUL` (R25). -/
  GFRES : Byte
  /-- `BUF[0..BUF_CAP-1]`, by index (R23). -/
  BUF : Memory
  /-- `LEN`, the number of valid bytes of `BUF` (R23). -/
  LEN : Word
  /-- `POS`, the chunker's position (R26). -/
  POS : Word
  /-- `TOTAL`, the length the last block loop walked (R27). -/
  TOTAL : Word
  /-- `CFG[0]`: emit `Progress` events (R28). -/
  PROGEN : Bool
  /-- `CFG[1]`: stored, read back, and read by no rule (R28, R226). -/
  DIAG : Bool
  /-- `STATUS[0]` (R29). -/
  BUSY : Bool
  /-- `STATUS[1]` (R29). -/
  DONE : Bool
  /-- `STATUS[3]` (R29). -/
  FALLBACK : Bool
  /-- `STATUS[11:8]`, the error latch (R29, R210). -/
  ERR : Nibble
  /-- `EV`, the event trace, oldest first (R38). -/
  EV : List Event
  /-- `CAP`, hard-wired to `BUF_CAP` (R32): nothing writes it. -/
  CAP : Word
  /-- The host accesses not yet performed, oldest first (the model's own, log entry 1). -/
  pending : List HostAccess
  /-- What the performed accesses returned, oldest first (the model's own, log entry 1). -/
  replies : List Reply
  deriving DecidableEq, Repr

/-- Why the machine stops. The spec has no stop: "no state of the core hangs" (93_implementation_defined.md, Part 2).
Both reasons are the model's own guards of an index outside a store; no state that meets the spec's invariants R41
reaches either (log entry 6). -/
inductive Fault where
  /-- Raised by `UNPAD`, `LDBLK`, `STBLK`, `STREAMDEC`, `RAWDEC` where the rule would index `BUF` at or above `BUF_CAP`,
  which needs `LEN > BUF_CAP` (excluded by R23 "at all times"). Safe. -/
  | bufIndex
  /-- Raised by `ADDROUNDKEY`, `ENCBLK`, `DECBLK` where the rule would index `W` above word 59, which needs `NR = 15`
  (excluded by R24). Safe. -/
  | wIndex
  deriving DecidableEq, Repr

/-- Why an instruction has no meaning. -/
inductive Refusal where
  /-- Raised by an arm of `exec` whose instruction has no meaning yet; no arm does. Safe. -/
  | notModelled (mnemonic : String)
  deriving DecidableEq, Repr

/-- The outcome of a command, of a host access and of a step. -/
abbrev Outcome := Host.Outcome State Fault Refusal

/-- The state after power-up reset (R59, R240) of a core of capacity `cap` whose buffer powers up holding `buf`
(`BUF_CAP` and `buf_init`, the two parameters of R12). `T` and `W` have no reset value: zero is a DESIGN CHOICE (unsafe),
log entries 2 and 3. -/
def State.powerUp (cap : Word) (buf : Memory) : State where
  S := Vector.replicate 16 0
  T := Vector.replicate 16 0
  KEY := Vector.replicate 32 0
  KLEN := 0
  W := Vector.replicate 60 (Vector.replicate 4 0)
  NR := 0
  WVALID := false
  GFRES := 0
  BUF := buf
  LEN := 0
  POS := 0
  TOTAL := 0
  PROGEN := false
  DIAG := false
  BUSY := false
  DONE := false
  FALLBACK := false
  ERR := 0
  EV := []
  CAP := cap
  pending := []
  replies := []

/-- The machine right after reset: `State.powerUp` at one choice of its two parameters, DESIGN CHOICE (unsafe), log
entries 4 and 5. -/
def State.reset : State := State.powerUp Config.bufCap []

end Sys2Proof.Machine
end

