-- ==== Sys2Proof/Machine/Flags.lean ====
section
/-! DEFINITION. Every flag computation: acceptance and completion of a command, and the two flag registers `STATUS` and
`CFG` (spec/10_state.md rules R28, R29, R31, R34, R35; spec/30_encoding.md rules R95, R96). -/

namespace Sys2Proof.Machine

/-- Acceptance: `BUSY <- 1; DONE <- 0; FALLBACK <- 0`, and nothing else (R95, R96). -/
def accept (s : State) : State := { s with BUSY := true, DONE := false, FALLBACK := false }

/-- Completion: `BUSY <- 0; DONE <- 1` (R95). -/
def complete (s : State) : State := { s with BUSY := false, DONE := true }

/-- `FALLBACK <- 1` (R190). -/
def setFallback (s : State) : State := { s with FALLBACK := true }

/-- A flag as a one-bit field. -/
def flagBit (b : Bool) : BitVec 1 := BitVec.ofBool b

/-- `STATUS` as it reads: `{20'b0, ERR[3:0], 4'b0, FALLBACK, WVALID, DONE, BUSY}` (R34). -/
def statusWord (s : State) : Word :=
  0#20 ++ s.ERR ++ 0#4 ++ flagBit s.FALLBACK ++ flagBit s.WVALID ++ flagBit s.DONE ++ flagBit s.BUSY

/-- `CFG` as it reads: `PROGEN` in bit 0, `DIAG` in bit 1, the rest 0 (R28, R32). -/
def cfgWord (s : State) : Word := 0#30 ++ flagBit s.DIAG ++ flagBit s.PROGEN

/-- A write of `CFG` stores bits 1:0 and ignores the rest (R35). -/
def writeCfg (v : Word) (s : State) : State := { s with PROGEN := v.getLsbD 0, DIAG := v.getLsbD 1 }

end Sys2Proof.Machine
end

