-- ==== Sys2Proof/Machine/Ops.lean ====
section
/-! DEFINITION. The named operations over memory and registers: bytes of `BUF` (spec/20_memory.md rules R60, R69), events
(R38), raising a fault and returning from one (spec/60_exceptions.md rules R210, R214, R216), and the guards of the two
indexed stores. -/

namespace Sys2Proof.Machine

/-- `BUF[a]` (R14). -/
def Memory.read : Memory → Nat → Byte
  | [], _ => Config.bufUnlisted
  | c :: m, a => if c.1 = a then c.2 else Memory.read m a

/-- The entry `(a, v)` put before the first entry of a higher index. -/
def Memory.insert : Memory → Nat → Byte → Memory
  | [], a, v => [(a, v)]
  | c :: m, a, v => if c.1 < a then c :: Memory.insert m a v else (a, v) :: c :: m

/-- `BUF[a] <- v` (R14), kept in the canonical form: the entry of `a` is replaced, and writing what an unlisted index
reads as only removes it. -/
def Memory.write (m : Memory) (a : Nat) (v : Byte) : Memory :=
  let others := m.filter fun c => c.1 != a
  if v = Config.bufUnlisted then others else Memory.insert others a v

/-- Consecutive byte writes `BUF[a + i] <- bs[i]`, in increasing `i` (R69). -/
def Memory.writeBytes : Memory → Nat → List Byte → Memory
  | m, _, [] => m
  | m, a, b :: bs => Memory.writeBytes (Memory.write m a b) (a + 1) bs

/-- `BUF[a .. a+15]` (R67, R182). -/
def Memory.readBlock (m : Memory) (a : Nat) : Block := Vector.ofFn fun i => m.read (a + i.val)

/-- `BUF[a + i] <- b[i]` for `i = 0..15` (R183). -/
def Memory.writeBlock (m : Memory) (a : Nat) (b : Block) : Memory := m.writeBytes a b.toList

/-- Byte `k` of word `i` of the expanded key (R14). `W` has 60 words of 4 bytes (R24): a command that would index
another one has stopped at `guardW` before, so the zero here is never seen. -/
def wByte (w : KeyMemory) (i k : Nat) : Byte := if h : i < 60 ∧ k < 4 then (w[i]'h.1)[k]'h.2 else 0

/-- `emit e`: append to the trace `EV` (R15, R38). -/
def emit (e : Event) (s : State) : State := { s with EV := s.EV ++ [e] }

/-- The error codes a command can raise (R210). -/
inductive ErrorCode where
  | invalidKeySize
  | invalidLength
  | invalidPadding
  | illegalCommand
  | noKey
  | range
  | capacity
  deriving DecidableEq, Repr

/-- The number of an error code (R210). -/
def ErrorCode.code : ErrorCode → Nibble
  | .invalidKeySize => 1
  | .invalidLength => 2
  | .invalidPadding => 3
  | .illegalCommand => 4
  | .noKey => 5
  | .range => 6
  | .capacity => 7

/-- Whether a raise ends with the terminal event `Fault(code)`: only a stream-class command emits events (R38, R218). -/
inductive CommandClass where
  | primitive
  | stream
  deriving DecidableEq, Repr

/-- `raise Fault(code)` on an accepted command (R214): `ERR <- code`; for a stream-class command `emit Fault(code)`; the
command completes; nothing else happens. -/
def raiseFault (cls : CommandClass) (e : ErrorCode) (s : State) : State :=
  let latched := { s with ERR := e.code }
  let emitted := match cls with
    | .primitive => latched
    | .stream => emit (.fault e.code) latched
  complete emitted

/-- The return from a fault (R216): `ERR <- 0`, nothing restored. -/
def returnFromFault (s : State) : State := { s with ERR := 0 }

/-- A command that raises ends in the next state `raiseFault` gives. -/
def raised (cls : CommandClass) (e : ErrorCode) (s : State) : Outcome := .next (raiseFault cls e s)

/-- A command that does not raise completes (R95). -/
def completed (s : State) : Outcome := .next (complete s)

/-- Go on only where the rule indexes `BUF` below `top` and `top <= BUF_CAP` (R23; log entry 6). -/
def guardBuf (top : Nat) (s : State) (go : Outcome) : Outcome :=
  if top ≤ s.CAP.toNat then go else .fault .bufIndex

/-- Go on only where the round keys up to `r` lie inside the 60 words of `W` (R24; log entry 6). -/
def guardW (r : Nat) (go : Outcome) : Outcome := if 4 * r + 3 < 60 then go else .fault .wIndex

/-- The reset state of a running core (R201, R240): every piece of state takes its reset value except `BUF`; the
hard-wired `CAP` and the host's side of the interface stay. -/
def softReset (s : State) : State :=
  { State.powerUp s.CAP s.BUF with pending := s.pending, replies := s.replies }

end Sys2Proof.Machine
end

