-- ==== Sys2Proof/Machine/RoundTransforms.lean ====
section
/-! DEFINITION. The round transform engines and their seven commands: spec/41_round_transforms.md. The state is in internal
order: row `r`, column `c` at `S[4r + c]` (R20). Each function reads all of the old block (R14, R140). -/

namespace Sys2Proof.Machine

/-- `SubBytes(s)[j] = SBOX[s[j]]` (R130). -/
def subBytes (s : Block) : Block := Vector.ofFn fun j => sbox s[j]

/-- `InvSubBytes(s)[j] = INV_SBOX[s[j]]` (R131). -/
def invSubBytes (s : Block) : Block := Vector.ofFn fun j => invSbox s[j]

/-- `ShiftRows(s)[4r + c] = s[4r + ((c + r) mod 4)]` (R132). -/
def shiftRows (s : Block) : Block := Vector.ofFn fun j =>
  let r := j.val / 4
  let c := j.val % 4
  s[4 * r + (c + r) % 4]

/-- `InvShiftRows(s)[4r + c] = s[4r + ((c - r) mod 4)]`, with `(c - r) mod 4` in 0..3 (R133). -/
def invShiftRows (s : Block) : Block := Vector.ofFn fun j =>
  let r := j.val / 4
  let c := j.val % 4
  s[4 * r + (c + (4 - r)) % 4]

/-- `MIX[i][k]`: 2 if `k = i`, 3 if `k = (i+1) mod 4`, else 1 (R136). -/
def mix (i k : Nat) : Byte := if k = i then 2 else if k = (i + 1) % 4 then 3 else 1

/-- `INV_MIX[i][k]`: 14, 11, 13, 9 at `k = i, i+1, i+2, i+3` mod 4 (R137). -/
def invMix (i k : Nat) : Byte :=
  if k = i then 14 else if k = (i + 1) % 4 then 11 else if k = (i + 2) % 4 then 13 else 9

/-- The matrix product of R134 and R135: byte `4i + c` of the result, from column `c` of `s` and row `i` of `m`. -/
def mixByte (m : Nat → Nat → Byte) (s : Block) (i : Nat) (c : Fin 4) : Byte :=
  gmul (m i 0) s[c.val] ^^^ gmul (m i 1) s[4 + c.val] ^^^ gmul (m i 2) s[8 + c.val] ^^^ gmul (m i 3) s[12 + c.val]

/-- The column transform by a matrix. -/
def mixBy (m : Nat → Nat → Byte) (s : Block) : Block := Vector.ofFn fun j =>
  mixByte m s (j.val / 4) ⟨j.val % 4, by omega⟩

/-- `MixColumns` (R134). -/
def mixColumns (s : Block) : Block := mixBy mix s

/-- `InvMixColumns` (R135). -/
def invMixColumns (s : Block) : Block := mixBy invMix s

/-- `RoundKey(W, r)[j] = W[4r + (j mod 4)][j div 4]` (R138). -/
def roundKey (w : KeyMemory) (r : Nat) : Block := Vector.ofFn fun j => wByte w (4 * r + j.val % 4) (j.val / 4)

/-- `AddRoundKey(s, W, r)[j] = s[j] ^ RoundKey(W, r)[j]` (R139). -/
def addRoundKey (s : Block) (w : KeyMemory) (r : Nat) : Block := Vector.ofFn fun j => s[j] ^^^ (roundKey w r)[j]

/-- `S <- f(S)` (R14). -/
def setS (b : Block) (s : State) : State := { s with S := b }

/-- The column transforms: all 16 bytes into `T`, then `S <- T` (R140). -/
def setSThroughT (b : Block) (s : State) : State := { s with T := b, S := b }

/-- `SUBBYTES` (R130). -/
def execSubbytes (s : State) : Outcome := completed (setS (subBytes s.S) (accept s))

/-- `INVSUBBYTES` (R131). -/
def execInvsubbytes (s : State) : Outcome := completed (setS (invSubBytes s.S) (accept s))

/-- `SHIFTROWS` (R132). -/
def execShiftrows (s : State) : Outcome := completed (setS (shiftRows s.S) (accept s))

/-- `INVSHIFTROWS` (R133). -/
def execInvshiftrows (s : State) : Outcome := completed (setS (invShiftRows s.S) (accept s))

/-- `MIXCOLUMNS` (R134). -/
def execMixcolumns (s : State) : Outcome := completed (setSThroughT (mixColumns s.S) (accept s))

/-- `INVMIXCOLUMNS` (R135). -/
def execInvmixcolumns (s : State) : Outcome := completed (setSThroughT (invMixColumns s.S) (accept s))

/-- `ADDROUNDKEY r`: `Fault(5)` without an expanded key, then `Fault(6)` if `r > NR`, else the key addition (R139). -/
def execAddroundkey (r : Nat) (s : State) : Outcome :=
  if s.WVALID = false then raised .primitive .noKey (accept s)
  else if s.NR.toNat < r then raised .primitive .range (accept s)
  else guardW r (completed (setS (addRoundKey s.S s.W r) (accept s)))

end Sys2Proof.Machine
end

