-- ==== Sys2Proof/Machine/BlockCipher.lean ====
section
/-! DEFINITION. The round orchestrator, `ENCBLK` and `DECBLK`: spec/43_block_cipher.md. -/

namespace Sys2Proof.Machine

/-- One full encryption round: `SubBytes`, `ShiftRows`, `MixColumns`, `AddRoundKey(r)` (R160). -/
def encryptRound (w : KeyMemory) (r : Nat) (s : Block) : Block :=
  addRoundKey (mixColumns (shiftRows (subBytes s))) w r

/-- The block after `AddRoundKey(0)` and the full rounds `1 .. n` (R160). -/
def encryptRounds (w : KeyMemory) (s : Block) : Nat → Block
  | 0 => addRoundKey s w 0
  | n + 1 => encryptRound w (n + 1) (encryptRounds w s n)

/-- `EncryptState(s, W, Nr)` (R160): the final round omits `MixColumns`. -/
def encryptState (s : Block) (w : KeyMemory) (nr : Nat) : Block :=
  addRoundKey (shiftRows (subBytes (encryptRounds w s (nr - 1)))) w nr

/-- One full decryption round: `InvShiftRows`, `InvSubBytes`, `AddRoundKey(r)`, `InvMixColumns` (R161). -/
def decryptRound (w : KeyMemory) (r : Nat) (s : Block) : Block :=
  invMixColumns (addRoundKey (invSubBytes (invShiftRows s)) w r)

/-- The block after `AddRoundKey(Nr)` and `n` full rounds, `r = Nr-1` down to `Nr-n` (R161). -/
def decryptRounds (w : KeyMemory) (nr : Nat) (s : Block) : Nat → Block
  | 0 => addRoundKey s w nr
  | n + 1 => decryptRound w (nr - (n + 1)) (decryptRounds w nr s n)

/-- `DecryptState(s, W, Nr)` (R161). -/
def decryptState (s : Block) (w : KeyMemory) (nr : Nat) : Block :=
  addRoundKey (invSubBytes (invShiftRows (decryptRounds w nr s (nr - 1)))) w 0

/-- The direction of the block core. -/
inductive Direction where
  | encrypt
  | decrypt
  deriving DecidableEq, Repr

/-- The block core in a direction: `f(S, W, NR)` of R185. -/
def cryptState (d : Direction) (s : Block) (w : KeyMemory) (nr : Nat) : Block :=
  match d with
  | .encrypt => encryptState s w nr
  | .decrypt => decryptState s w nr

/-- What the block core leaves in `T` (R21, R140): the output of its last column transform, or the old `T` where the
round loop runs no round. -/
def scratchAfter (d : Direction) (t s : Block) (w : KeyMemory) (nr : Nat) : Block :=
  if nr < 2 then t else
    match d with
    | .encrypt => mixColumns (shiftRows (subBytes (encryptRounds w s (nr - 2))))
    | .decrypt => decryptRounds w nr s (nr - 1)

/-- `S <- f(S, W, NR)` (R162, R163, R185). -/
def cryptS (d : Direction) (s : State) : State :=
  { s with S := cryptState d s.S s.W s.NR.toNat, T := scratchAfter d s.T s.S s.W s.NR.toNat }

/-- `ENCBLK`: `Fault(5)` without an expanded key, else `S <- EncryptState(S, W, NR)` (R162). -/
def execEncblk (s : State) : Outcome :=
  if s.WVALID = false then raised .primitive .noKey (accept s)
  else guardW s.NR.toNat (completed (cryptS .encrypt (accept s)))

/-- `DECBLK`: `Fault(5)` without an expanded key, else `S <- DecryptState(S, W, NR)` (R163). -/
def execDecblk (s : State) : Outcome :=
  if s.WVALID = false then raised .primitive .noKey (accept s)
  else guardW s.NR.toNat (completed (cryptS .decrypt (accept s)))

end Sys2Proof.Machine
end

