-- ==== Sys2Proof/Machine/Operands.lean ====
section
/-! DEFINITION. Every operand form: the block at `POS` with its transposition (spec/20_memory.md rules R61 to R63, R67;
spec/45_stream_driver.md rules R180 to R183), the key in use (spec/10_state.md rule R22; spec/42_key_schedule.md rule
R150), and the host's addresses (spec/20_memory.md rule R70; spec/10_state.md rule R32). The immediate bytes `A` and `B`
are operands of the constructors of `Instr` (R92). -/

namespace Sys2Proof.Machine

/-- `tau(j) = (j div 4) + 4*(j mod 4)` (R62). -/
def tau (j : Nat) : Nat := j / 4 + 4 * (j % 4)

/-- The transposition `x[tau(j)]`, the one permutation behind R180 and R181. -/
def transpose (b : Block) : Block := Vector.ofFn fun j => b[tau j.val]'(by unfold tau; omega)

/-- `ToInternal(b)[j] = b[tau(j)]` (R180). -/
def toInternal (b : Block) : Block := transpose b

/-- `ToExternal(s)[i] = s[tau(i)]` (R181). -/
def toExternal (s : Block) : Block := transpose s

/-- The block operand of `LDBLK` and `STBLK`: aligned, and wholly inside the valid buffer. The sum is over the natural
numbers (R27, R182). -/
def blockInRange (s : State) : Bool := decide (s.POS.toNat % 16 = 0 ∧ s.POS.toNat + 16 ≤ s.LEN.toNat)

/-- `KLEN in {16, 24, 32}` (R22, R154). -/
def keyLenValid (klen : Byte) : Bool := klen == 16 || klen == 24 || klen == 32

/-- `LEN mod 16 = 0` (R67). -/
def wholeBlocks (s : State) : Bool := s.LEN.toNat % 16 == 0

/-- The control registers (R32). -/
inductive ControlRegister where
  | cmd | status | cfg | klen | len | pos | total | nr | gfres | cap
  deriving DecidableEq, Repr

/-- The control register at a byte offset: none at a reserved slot or a misaligned offset (R32, R68). -/
def registerAt : Nat → Option ControlRegister
  | 0x00 => some .cmd
  | 0x04 => some .status
  | 0x08 => some .cfg
  | 0x0C => some .klen
  | 0x10 => some .len
  | 0x14 => some .pos
  | 0x18 => some .total
  | 0x1C => some .nr
  | 0x20 => some .gfres
  | 0x24 => some .cap
  | _ => none

/-- What a host address names (R70). -/
inductive Target where
  | register (offset : Nat)
  | key (i : Fin 32)
  | state (j : Fin 16)
  | wb (n : Fin 240)
  | buffer (a : Nat)
  | reserved
  deriving DecidableEq, Repr

/-- The host address map of a core of capacity `cap` (R70). -/
def target (cap addr : Word) : Target :=
  let a := addr.toNat
  if a < 0x40 then .register a
  else if h : 0x100 ≤ a ∧ a < 0x120 then .key ⟨a - 0x100, by omega⟩
  else if h : 0x120 ≤ a ∧ a < 0x130 then .state ⟨a - 0x120, by omega⟩
  else if h : 0x200 ≤ a ∧ a < 0x2F0 then .wb ⟨a - 0x200, by omega⟩
  else if 0x10000 ≤ a ∧ a < 0x10000 + cap.toNat then .buffer (a - 0x10000)
  else .reserved

end Sys2Proof.Machine
end

