-- ==== Sys2Proof/Machine/KeySchedule.lean ====
section
/-! DEFINITION. The key schedule and `EXPANDKEY`: spec/42_key_schedule.md. -/

namespace Sys2Proof.Machine

/-- `^` on words, bytewise (R153). -/
def xorWord (u v : KeyWord) : KeyWord := Vector.ofFn fun k => u[k] ^^^ v[k]

/-- `RotWord((b0, b1, b2, b3)) = (b1, b2, b3, b0)` (R153). -/
def rotWord (u : KeyWord) : KeyWord := #v[u[1], u[2], u[3], u[0]]

/-- `SubWord`: the forward table on each byte (R153). -/
def subWord (u : KeyWord) : KeyWord := Vector.ofFn fun k => sbox u[k]

/-- The round-constant word `(RCON(r), 0x00, 0x00, 0x00)` (R153). -/
def rconWord (r : Nat) : KeyWord := #v[rcon r, 0x00, 0x00, 0x00]

/-- Word `i` of the words produced so far. -/
def wordAt (ws : List KeyWord) (i : Nat) : KeyWord := ws.getD i (Vector.replicate 4 0)

/-- The word of R152 that follows the words `ws`, of index `i = ws.length`. -/
def nextWord (nk : Nat) (ws : List KeyWord) : KeyWord :=
  let i := ws.length
  let prev := wordAt ws (i - 1)
  let temp :=
    if i % nk = 0 then xorWord (subWord (rotWord prev)) (rconWord (i / nk))
    else if 6 < nk ∧ i % nk = 4 then subWord prev
    else prev
  xorWord (wordAt ws (i - nk)) temp

/-- `n` more words, in increasing order of index (R152). -/
def extendWords (nk : Nat) : Nat → List KeyWord → List KeyWord
  | 0, ws => ws
  | n + 1, ws => extendWords nk n (ws ++ [nextWord nk ws])

/-- `key[i]`; the key has 32 bytes, and a valid key length reads the first 16, 24 or 32 of them (R22). -/
def keyByte (key : Vector Byte 32) (i : Nat) : Byte := if h : i < 32 then key[i] else 0

/-- `w[i][k] = key[4i + k]` for `i < Nk` (R151). -/
def keyWords (key : Vector Byte 32) (nk : Nat) : List KeyWord :=
  (List.range nk).map fun i => Vector.ofFn fun k => keyByte key (4 * i + k.val)

/-- `Nk = KLEN / 4` (R150). -/
def nkOf (klen : Byte) : Nat := klen.toNat / 4

/-- `Nr = Nk + 6` (R150). -/
def nrOf (klen : Byte) : Nat := nkOf klen + 6

/-- `ExpandKey(KEY[0..KLEN-1])`: the `4*(Nr+1)` words (R150 to R152). -/
def expandKey (key : Vector Byte 32) (klen : Byte) : List KeyWord :=
  extendWords (nkOf klen) (4 * (nrOf klen + 1) - nkOf klen) (keyWords key (nkOf klen))

/-- `W[i] <- w[i]` for the words given; the words above them are not written (R154). -/
def loadWords (w : KeyMemory) (ws : List KeyWord) : KeyMemory :=
  Vector.ofFn fun i => if i.val < ws.length then wordAt ws i.val else w[i]

/-- `(W, NR) <- ExpandKey(KEY[0..KLEN-1]); WVALID <- 1` (R154, R186). -/
def loadExpandedKey (s : State) : State :=
  { s with W := loadWords s.W (expandKey s.KEY s.KLEN), NR := BitVec.ofNat 4 (nrOf s.KLEN), WVALID := true }

/-- `WVALID <- 0; NR <- 0`: the key is discarded (R189). -/
def discardKey (s : State) : State := { s with WVALID := false, NR := 0 }

/-- `EXPANDKEY`: `Fault(1)` on an invalid key length, else expand and hold the key (R154). -/
def execExpandkey (s : State) : Outcome :=
  if keyLenValid s.KLEN then completed (loadExpandedKey (accept s))
  else raised .primitive .invalidKeySize (accept s)

end Sys2Proof.Machine
end

