-- ==== Sys2Proof/Machine/Padding.lean ====
section
/-! DEFINITION. The PKCS#7 padder and unpadder, `PAD` and `UNPAD`: spec/44_padding.md. -/

namespace Sys2Proof.Machine

/-- `PadLen(L) = 16 - (L mod 16)` (R170). -/
def padLen (l : Nat) : Nat := 16 - l % 16

/-- `PadFits(LEN)`: `LEN + PadLen(LEN) <= BUF_CAP`, over the natural numbers (R170). -/
def padFits (s : State) : Bool := decide (s.LEN.toNat + padLen s.LEN.toNat ≤ s.CAP.toNat)

/-- `BUF[LEN + i] <- k for i = 0 .. k-1; LEN <- LEN + k` with `k = PadLen(LEN)` (R171). -/
def padBuffer (s : State) : State :=
  let l := s.LEN.toNat
  let k := padLen l
  { s with BUF := s.BUF.writeBytes l (List.replicate k (BitVec.ofNat 8 k)), LEN := BitVec.ofNat 32 (l + k) }

/-- `UnpadCheck(buf, L)`: no error, or the code to raise, the checks in the source's order (R172). -/
def unpadCheck (buf : Memory) (l : Nat) : Option ErrorCode :=
  if l = 0 ∨ l % 16 ≠ 0 then some .invalidLength
  else
    let n := buf.read (l - 1)
    if n.toNat < 1 ∨ 16 < n.toNat then some .invalidPadding
    else if (List.range n.toNat).all fun i => buf.read (l - 1 - i) == n then none
    else some .invalidPadding

/-- `LEN <- LEN - BUF[LEN-1]` (R173). -/
def unpadBuffer (s : State) : State :=
  { s with LEN := BitVec.ofNat 32 (s.LEN.toNat - (s.BUF.read (s.LEN.toNat - 1)).toNat) }

/-- `PAD`: `Fault(7)` where the padded buffer would not fit, else append the pad (R171). -/
def execPad (s : State) : Outcome :=
  if padFits s then completed (padBuffer (accept s)) else raised .primitive .capacity (accept s)

/-- `UNPAD`: raise what `UnpadCheck` returns, else lower `LEN` (R173). -/
def execUnpad (s : State) : Outcome :=
  guardBuf s.LEN.toNat s <|
    match unpadCheck s.BUF s.LEN.toNat with
    | some e => raised .primitive e (accept s)
    | none => completed (unpadBuffer (accept s))

end Sys2Proof.Machine
end

