-- ==== Sys2Proof/Machine/Stream.lean ====
section
/-! DEFINITION. Block load and store, the block loop with its progress counter, and the stream-class commands:
spec/45_stream_driver.md. -/

namespace Sys2Proof.Machine

/-- `S <- ToInternal(BUF[POS..POS+15])` (R182). -/
def loadBlock (s : State) : State := { s with S := toInternal (s.BUF.readBlock s.POS.toNat) }

/-- `BUF[POS + i] <- ToExternal(S)[i]` for `i = 0..15` (R183). -/
def storeBlock (s : State) : State := { s with BUF := s.BUF.writeBlock s.POS.toNat (toExternal s.S) }

/-- `LDBLK`: `Fault(6)` where the block is not aligned or not inside the valid buffer, else load it (R182). -/
def execLdblk (s : State) : Outcome :=
  if blockInRange s then guardBuf (s.POS.toNat + 16) s (completed (loadBlock (accept s)))
  else raised .primitive .range (accept s)

/-- `STBLK`: `Fault(6)` as `LDBLK`, else store the block (R183). -/
def execStblk (s : State) : Outcome :=
  if blockInRange s then guardBuf (s.POS.toNat + 16) s (completed (storeBlock (accept s)))
  else raised .primitive .range (accept s)

/-- `POS <- POS + 16` (R185). -/
def advancePos (s : State) : State := { s with POS := s.POS + 16 }

/-- `if PROGEN = 1 and POS mod 2048 = 0: emit Progress(POS, TOTAL)` (R184, R185). -/
def strideProgress (s : State) : State :=
  if s.PROGEN = true ∧ s.POS.toNat % Config.stride = 0 then emit (.progress s.POS s.TOTAL) s else s

/-- `if PROGEN = 1 and (TOTAL mod 2048 != 0 or TOTAL = 0): emit Progress(TOTAL, TOTAL)` (R184, R185). -/
def finalProgress (s : State) : State :=
  if s.PROGEN = true ∧ (s.TOTAL.toNat % Config.stride ≠ 0 ∨ s.TOTAL.toNat = 0) then
    emit (.progress s.TOTAL s.TOTAL) s
  else s

/-- One pass of the loop of R185: load, block core, store, advance, progress. -/
def processBlock (d : Direction) (s : State) : State :=
  strideProgress (advancePos (storeBlock (cryptS d (loadBlock s))))

/-- `n` passes of the loop of R185. -/
def processBlocks (d : Direction) : Nat → State → State
  | 0, s => s
  | n + 1, s => processBlocks d n (processBlock d s)

/-- `TOTAL <- LEN; POS <- 0` (R185). -/
def startLoop (s : State) : State := { s with TOTAL := s.LEN, POS := 0 }

/-- `BlockLoop(f)` (R185). It is entered with `LEN mod 16 = 0`, and `POS` goes from 0 to `TOTAL = LEN` by 16, so
`while POS < TOTAL` is `LEN div 16` passes. -/
def blockLoop (d : Direction) (s : State) : State :=
  finalProgress (processBlocks d (s.LEN.toNat / 16) (startLoop s))

/-- The part the three stream-class commands share: expand the key, run the loop, discard the key (R186 to R189). -/
def streamBlocks (d : Direction) (s : State) : State := discardKey (blockLoop d (loadExpandedKey s))

/-- `emit Result(LEN, FALLBACK)` (R186 to R188). -/
def emitResult (s : State) : State := emit (.result s.LEN s.FALLBACK) s

/-- `STREAMENC` (R186): `Fault(1)`, `Fault(7)`; pad, expand, loop, discard, `Result(LEN, 0)` (`FALLBACK` is 0 from
acceptance on). -/
def execStreamenc (s : State) : Outcome :=
  if keyLenValid s.KLEN then
    if padFits s then completed (emitResult (streamBlocks .encrypt (padBuffer (accept s))))
    else raised .stream .capacity (accept s)
  else raised .stream .invalidKeySize (accept s)

/-- The unpad attempt at the end of `STREAMDEC`: any failure takes the fallback, the empty buffer included (R187,
R190). -/
def unpadOrFallback (s : State) : State :=
  match unpadCheck s.BUF s.LEN.toNat with
  | none => unpadBuffer s
  | some _ => setFallback s

/-- `STREAMDEC` (R187): `Fault(1)`, `Fault(2)`; expand, loop, discard, unpad or fall back, `Result(LEN, FALLBACK)`. -/
def execStreamdec (s : State) : Outcome :=
  if keyLenValid s.KLEN then
    if wholeBlocks s then
      guardBuf s.LEN.toNat s (completed (emitResult (unpadOrFallback (streamBlocks .decrypt (accept s)))))
    else raised .stream .invalidLength (accept s)
  else raised .stream .invalidKeySize (accept s)

/-- `RAWDEC` (R188): `Fault(1)`, `Fault(2)`; expand, loop, discard, `Result(LEN, 0)`. -/
def execRawdec (s : State) : Outcome :=
  if keyLenValid s.KLEN then
    if wholeBlocks s then guardBuf s.LEN.toNat s (completed (emitResult (streamBlocks .decrypt (accept s))))
    else raised .stream .invalidLength (accept s)
  else raised .stream .invalidKeySize (accept s)

end Sys2Proof.Machine
end

