-- ==== Sys2Proof/Machine/System.lean ====
section
/-! DEFINITION. The system commands `CLRERR` and `SRESET`: spec/46_system.md. -/

namespace Sys2Proof.Machine

/-- `CLRERR`: `ERR <- 0`, the return from a fault (R200, R216). -/
def execClrerr (s : State) : Outcome := completed (returnFromFault (accept s))

/-- `SRESET`: the reset state with the current `BUF`; unlike every other command it leaves `DONE = 0` (R201). -/
def execSreset (s : State) : Outcome := .next (softReset s)

end Sys2Proof.Machine
end

