-- ==== Sys2Proof/Machine/Dispatch.lean ====
section
/-! DEFINITION. One arm for each command: the whole of an accepted command, from acceptance to completion
(spec/30_encoding.md rule R95). -/

namespace Sys2Proof.Machine

def exec (i : Instr) (s : State) : Host.Outcome State Fault Refusal :=
  match i with
  | .gfmul a b => Sys2Proof.Machine.execGfmul a b s
  | .subbytes => Sys2Proof.Machine.execSubbytes s
  | .invsubbytes => Sys2Proof.Machine.execInvsubbytes s
  | .shiftrows => Sys2Proof.Machine.execShiftrows s
  | .invshiftrows => Sys2Proof.Machine.execInvshiftrows s
  | .mixcolumns => Sys2Proof.Machine.execMixcolumns s
  | .invmixcolumns => Sys2Proof.Machine.execInvmixcolumns s
  | .addroundkey r => Sys2Proof.Machine.execAddroundkey r s
  | .expandkey => Sys2Proof.Machine.execExpandkey s
  | .encblk => Sys2Proof.Machine.execEncblk s
  | .decblk => Sys2Proof.Machine.execDecblk s
  | .pad => Sys2Proof.Machine.execPad s
  | .unpad => Sys2Proof.Machine.execUnpad s
  | .ldblk => Sys2Proof.Machine.execLdblk s
  | .stblk => Sys2Proof.Machine.execStblk s
  | .streamenc => Sys2Proof.Machine.execStreamenc s
  | .streamdec => Sys2Proof.Machine.execStreamdec s
  | .rawdec => Sys2Proof.Machine.execRawdec s
  | .clrerr => Sys2Proof.Machine.execClrerr s
  | .sreset => Sys2Proof.Machine.execSreset s

end Sys2Proof.Machine
end

