-- ==== Sys2Proof/Machine/HostPort.lean ====
section
/-! DEFINITION. The host's side of the core: the command entry procedure (spec/30_encoding.md rule R95;
spec/60_exceptions.md rule R212), and the reads and writes of registers and windows (spec/10_state.md rules R32 to R37;
spec/20_memory.md rules R68, R70, R73). -/

namespace Sys2Proof.Machine

/-- The two words the latch lets through: `CLRERR` and `SRESET`, exactly (R212). -/
def passesLatch (w : Word) : Bool := w == 0x000000F0 || w == 0x000000FF

/-- An illegal word that is accepted raises `Fault(4)` and changes nothing else (R94, R95). -/
def illegalCommand (s : State) : Outcome := raised .primitive .illegalCommand (accept s)

/-- `CommandEntry(w)` (R95): ignored while busy; dropped while an error is latched, with no effect of any kind; else
accepted, and illegal or executed. -/
def commandEntry (w : Word) (s : State) : Outcome :=
  if s.BUSY = true then .next s
  else if s.ERR ≠ 0 ∧ passesLatch w = false then .next s
  else
    match decode w with
    | .error _ => illegalCommand s
    | .ok i => exec i s

/-- Append the reply of an access; a stop stays a stop. -/
def answer (r : Reply) : Outcome → Outcome
  | .next s => .next { s with replies := s.replies ++ [r] }
  | .fault f => .fault f
  | .refused f => .refused f

/-- The registers the host may read while a command runs (R68, R73). -/
def readableWhileBusy : ControlRegister → Bool
  | .status | .pos | .total => true
  | .cmd | .cfg | .klen | .len | .nr | .gfres | .cap => false

/-- What a control register reads as: bits not listed read as 0, `CMD` as 0 (R32 to R34). -/
def readRegister (s : State) : ControlRegister → Word
  | .cmd => 0
  | .status => statusWord s
  | .cfg => cfgWord s
  | .klen => s.KLEN.setWidth 32
  | .len => s.LEN
  | .pos => s.POS
  | .total => s.TOTAL
  | .nr => s.NR.setWidth 32
  | .gfres => s.GFRES.setWidth 32
  | .cap => s.CAP

/-- A write of a control register other than `CMD`: the new state, or none where it is refused (R32, R35). -/
def writeRegister (r : ControlRegister) (v : Word) (s : State) : Option State :=
  match r with
  | .cfg => some (writeCfg v s)
  | .klen => some { s with KLEN := v.setWidth 8 }
  | .len => if v.toNat ≤ s.CAP.toNat then some { s with LEN := v } else none
  | .pos => some { s with POS := v }
  | .cmd | .status | .total | .nr | .gfres | .cap => none

/-- The `WB` window: `WB[4i + k] = W[i][k]`, only while a key is held and only for its words (R37). -/
def readWb (s : State) (n : Fin 240) : Reply :=
  if s.WVALID = true ∧ n.val < 16 * (s.NR.toNat + 1) then .byte (wByte s.W (n.val / 4) (n.val % 4)) else .busError

/-- An 8-bit read: the byte windows only (R36, R68). -/
def hostRead8 (addr : Word) (s : State) : Reply :=
  if s.BUSY = true then .busError
  else
    match target s.CAP addr with
    | .key i => .byte s.KEY[i]
    | .state j => .byte s.S[j]
    | .wb n => readWb s n
    | .buffer a => .byte (s.BUF.read a)
    | .register _ | .reserved => .busError

/-- An 8-bit write: the writable byte windows only, and only the byte addressed changes (R36, R68). -/
def hostWrite8 (addr : Word) (v : Byte) (s : State) : Option State :=
  if s.BUSY = true then none
  else
    match target s.CAP addr with
    | .key i => some { s with KEY := s.KEY.set i v }
    | .state j => some { s with S := s.S.set j v }
    | .buffer a => some { s with BUF := s.BUF.write a v }
    | .wb _ | .register _ | .reserved => none

/-- The control register a 32-bit access names, if any (R32, R68). -/
def registerOf (cap addr : Word) : Option ControlRegister :=
  match target cap addr with
  | .register off => registerAt off
  | .key _ | .state _ | .wb _ | .buffer _ | .reserved => none

/-- A 32-bit read: an aligned control register only (R32, R68, R73). -/
def hostRead32 (addr : Word) (s : State) : Reply :=
  match registerOf s.CAP addr with
  | some r => if s.BUSY = true ∧ readableWhileBusy r = false then .busError else .word (readRegister s r)
  | none => .busError

/-- The reply to a write that was taken or refused. -/
def writeOutcome (s : State) : Option State → Outcome
  | some s' => answer .written (.next s')
  | none => answer .busError (.next s)

/-- A 32-bit write: refused while a command runs, `CMD` included (R68); else `CMD` runs the command entry procedure
before the write returns (R33), and another register is written or the access refused (R32, R68). -/
def hostWrite32 (addr v : Word) (s : State) : Outcome :=
  if s.BUSY = true then writeOutcome s none
  else
    match registerOf s.CAP addr with
    | some .cmd => answer .written (commandEntry v s)
    | some r => writeOutcome s (writeRegister r v s)
    | none => writeOutcome s none

/-- One host access (R68, R69): a read has no side effect, a refused access changes nothing, and what the access returns
is appended to `replies`. -/
def hostAccess (a : HostAccess) (s : State) : Outcome :=
  match a with
  | .read8 addr => answer (hostRead8 addr s) (.next s)
  | .write8 addr v => writeOutcome s (hostWrite8 addr v s)
  | .read32 addr => answer (hostRead32 addr s) (.next s)
  | .write32 addr v => hostWrite32 addr v s
  | .otherWidth _ _ => writeOutcome s none

/-- The host address of `CMD` (R32). -/
def cmdAddress : Word := 0x00000000

/-- One step: the oldest pending host access, or nothing: between accesses the core is idle and holds its state (R225,
R227). -/
def nextAccess (s : State) : Outcome :=
  match s.pending with
  | [] => .next s
  | a :: rest => hostAccess a { s with pending := rest }

/-- The host about to write the word `w` to `CMD`, before everything else it has pending. -/
def issueWord (w : Word) (s : State) : State := { s with pending := .write32 cmdAddress w :: s.pending }

end Sys2Proof.Machine
end

