-- ==== Sys2Proof/Machine/Step.lean ====
section
/-! DEFINITION. The step of the machine, and how a word comes to be the next command (log entry 1). -/

namespace Sys2Proof.Machine

/-- One step: one host access, from its beginning to its end (spec/00_scope.md rule R11). -/
def step (s : State) : Host.Outcome State Fault Refusal := nextAccess s

/-- `s` with the host's write of the word `w` of `nbits` bits to `CMD` as the next access. -/
def State.withFetchWord (s : State) (nbits w : Nat) : State := issueWord (tableWord nbits w) s

end Sys2Proof.Machine
end

