-- ==== Sys2Proof/Safety.lean ====
section
/-! DEFINITION. What counts as a good state and a good run, and the terms the statements are written in: the invariants of
spec/10_state.md rule R41, runs of commands and of host accesses, and the functional contents of a buffer. -/

namespace Sys2Proof.Machine

/-- The parameter `BUF_CAP`: a multiple of 16 in `16 .. 2^31` (R9). -/
def validCap (cap : Word) : Prop := cap.toNat % 16 = 0 ∧ 16 ≤ cap.toNat ∧ cap.toNat ≤ 2 ^ 31

/-- A buffer memory of a core of capacity `cap`: in canonical form, and with no index at or above the capacity (R23). -/
def validBuf (cap : Word) (m : Memory) : Prop := m.wf ∧ ∀ c ∈ m, c.1 < cap.toNat

/-- The invariants of R41, with the form of the memory list. -/
structure State.Inv (s : State) : Prop where
  cap : validCap s.CAP
  buf : validBuf s.CAP s.BUF
  len : s.LEN.toNat ≤ s.CAP.toNat
  held : s.WVALID = true → s.NR = 10 ∨ s.NR = 12 ∨ s.NR = 14
  notHeld : s.WVALID = false → s.NR = 0
  err : s.ERR.toNat ≤ 7
  busy : s.BUSY = false
  total : s.TOTAL.toNat ≤ s.CAP.toNat
  totalBlocks : s.TOTAL.toNat % 16 = 0

/-- The state after an accepted primitive command, or an illegal word, raised `Fault(code)` (R214). -/
def State.faulted (s : State) (code : Nibble) : State :=
  { s with ERR := code, BUSY := false, DONE := true, FALLBACK := false }

/-- The state after an accepted stream-class command raised `Fault(code)` (R214, R218). -/
def State.streamFaulted (s : State) (code : Nibble) : State :=
  { s with ERR := code, EV := s.EV ++ [.fault code], BUSY := false, DONE := true, FALLBACK := false }

/-- The codes a command can raise (R211). -/
def raisable : Instr → List Nibble
  | .gfmul _ _ | .subbytes | .invsubbytes | .shiftrows | .invshiftrows | .mixcolumns | .invmixcolumns | .clrerr
  | .sreset => []
  | .addroundkey _ => [5, 6]
  | .expandkey => [1]
  | .encblk | .decblk => [5]
  | .pad => [7]
  | .unpad => [2, 3]
  | .ldblk | .stblk => [6]
  | .streamenc => [1, 7]
  | .streamdec | .rawdec => [1, 2]

/-- The first `l` bytes end in a valid pad trailer (R172): a positive whole number of blocks, a last byte `n` in 1..16,
and the last `n` bytes all `n`. -/
def validPad (byte : Nat → Byte) (l : Nat) : Prop :=
  l ≠ 0 ∧ l % 16 = 0 ∧ 1 ≤ (byte (l - 1)).toNat ∧ (byte (l - 1)).toNat ≤ 16 ∧
    ∀ i < (byte (l - 1)).toNat, byte (l - 1 - i) = byte (l - 1)

/-- Accepted commands one after another, up to the first stop. -/
def runCommands : List Instr → State → Outcome
  | [], s => .next s
  | i :: is, s =>
    match exec i s with
    | .next t => runCommands is t
    | .fault f => .fault f
    | .refused r => .refused r

/-- `n` steps, up to the first stop. -/
def runSteps : Nat → State → Outcome
  | 0, s => .next s
  | n + 1, s =>
    match step s with
    | .next t => runSteps n t
    | .fault f => .fault f
    | .refused r => .refused r

/-- `encround r` of R99. -/
def encround (r : Nat) : List Instr := [.subbytes, .shiftrows, .mixcolumns, .addroundkey r]

/-- `encblk.steps` of R99: `ADDROUNDKEY 0`; `encround r` for `r = 1 .. nr-1`; `encfinal nr`. -/
def encblkSteps (nr : Nat) : List Instr :=
  .addroundkey 0 :: (List.range (nr - 1)).flatMap (fun k => encround (k + 1)) ++
    [.subbytes, .shiftrows, .addroundkey nr]

/-- `decround r` of R99. -/
def decround (r : Nat) : List Instr := [.invshiftrows, .invsubbytes, .addroundkey r, .invmixcolumns]

/-- `decblk.steps` of R99: `ADDROUNDKEY nr`; `decround r` for `r = nr-1` down to 1; `decfinal`. -/
def decblkSteps (nr : Nat) : List Instr :=
  .addroundkey nr :: (List.range (nr - 1)).flatMap (fun k => decround (nr - 1 - k)) ++
    [.invshiftrows, .invsubbytes, .addroundkey 0]

/-- The host writes the word `w` to `CMD`. -/
def issue (w : Word) : HostAccess := .write32 0x00000000 w

/-- `block n; ecbdec1` of R99: the host points `POS` at block `n` and issues `LDBLK`, `DECBLK`, `STBLK`. -/
def decryptBlockAccesses (n : Nat) : List HostAccess :=
  [.write32 0x00000014 (BitVec.ofNat 32 (16 * n)), issue 0x00000050, issue 0x00000031, issue 0x00000051]

/-- `EXPANDKEY`, then `block n; ecbdec1` for each of the `n` blocks (R100). -/
def decryptByHand (n : Nat) : List HostAccess :=
  issue 0x00000020 :: (List.range n).flatMap decryptBlockAccesses

/-- The block number `n` of a buffer given by its bytes, in external order (R61). -/
def blockOf (byte : Nat → Byte) (n : Nat) : Block := Vector.ofFn fun i => byte (16 * n + i.val)

/-- Byte `a` of the buffer after `PAD`: the data below the old length, the pad byte from there on (R171). -/
def paddedByte (s : State) (a : Nat) : Byte :=
  if a < s.LEN.toNat then s.BUF.read a else BitVec.ofNat 8 (padLen s.LEN.toNat)

/-- Byte `a` of the buffer `byte` after every 16-byte block of it went through the block core with the key in `KEY`,
`KLEN` (R185). -/
def cryptedByte (d : Direction) (s : State) (byte : Nat → Byte) (a : Nat) : Byte :=
  (toExternal (cryptState d (toInternal (blockOf byte (a / 16))) (loadWords s.W (expandKey s.KEY s.KLEN))
    (nrOf s.KLEN)))[a % 16]

/-- The `Progress` events of a block loop over `total` bytes (R184): one at each multiple of 2048 up to `total`, and one
at `total` where it is not such a multiple or is 0. -/
def progressEvents (total : Nat) : List Event :=
  (List.range (total / 2048)).map (fun i => .progress (BitVec.ofNat 32 (2048 * (i + 1))) (BitVec.ofNat 32 total)) ++
    if total % 2048 ≠ 0 ∨ total = 0 then [.progress (BitVec.ofNat 32 total) (BitVec.ofNat 32 total)] else []

/-- The `Progress` events of a command whose loop walks `total` bytes in the state `s` (R184, R219). -/
def emittedProgress (s : State) (total : Nat) : List Event := if s.PROGEN = true then progressEvents total else []

end Sys2Proof.Machine
end

