-- ==== Sys2Proof/Certificates/Slice0/Obligations.lean ====
section
/-! DEFINITION. The statements for the provers. Each says which rule of the spec it formalises. A frame is written as an
equation `t = { s with … }`: every field not named between the braces is unchanged. -/

open Sys2Proof Sys2Proof.Machine

/-! ### Encoding (30_encoding.md) -/

/-- Words of the examples of V60 and R93 decode to the commands they stand for. -/
def Obligations.SampleWordsDecode : Prop :=
  decode 0x00800201 = .ok (.gfmul 0x02 0x80) ∧ decode 0x00000010 = .ok .subbytes ∧
  decode 0x00000A16 = .ok (.addroundkey 10) ∧ decode 0x00000020 = .ok .expandkey ∧
  decode 0x00000030 = .ok .encblk ∧ decode 0x00000041 = .ok .unpad ∧ decode 0x00000051 = .ok .stblk ∧
  decode 0x00000062 = .ok .rawdec ∧ decode 0x000000F0 = .ok .clrerr

/-- Decode and encode agree: for every well-formed command, with every operand at every value the encoding admits, the
decoder reads back from its word exactly that command (R91 to R93). -/
def Obligations.DecodeOfEncodeIsTheCommand : Prop :=
  ∀ i : Instr, i.wellFormed = true → decode (encode i) = .ok i

/-- Each legal word has one meaning and no bit of it is dropped: the command it decodes to is well formed and encodes to
that very word (R91 to R94). -/
def Obligations.EncodeOfDecodeIsTheWord : Prop :=
  ∀ (w : Word) (i : Instr), decode w = .ok i → i.wellFormed = true ∧ encode i = w

/-- R93: the decoder agrees with the `match` and `mask` columns of the table: a word that decodes selects the row of its
command and no other, and a word that is illegal selects no row. -/
def Obligations.DecoderFollowsMatchAndMask : Prop :=
  ∀ w : Word,
    (∀ i, decode w = .ok i → ∀ row ∈ opcodeTable, (row.selects w = true ↔ row.mnemonic = i.mnemonic)) ∧
    (∀ e, decode w = .error e → ∀ row ∈ opcodeTable, row.selects w = false)

/-- R94: a word is illegal exactly when `Z != 0`, or `OP` is none of the 20 opcodes, or `B != 0` on any command but
`GFMUL`, or `A != 0` on any command but `GFMUL` and `ADDROUNDKEY`; and an illegal word that is accepted raises `Fault(4)`
and changes nothing else. -/
def Obligations.IllegalWordsAndTheirFault : Prop :=
  (∀ w : Word, (∃ e, decode w = .error e) ↔
    w.extractLsb' 24 8 ≠ 0 ∨
    w.extractLsb' 0 8 ∉ ([0x01, 0x10, 0x11, 0x12, 0x13, 0x14, 0x15, 0x16, 0x20, 0x30, 0x31, 0x40, 0x41, 0x50, 0x51,
      0x60, 0x61, 0x62, 0xF0, 0xFF] : List Byte) ∨
    (w.extractLsb' 16 8 ≠ 0 ∧ w.extractLsb' 0 8 ≠ 0x01) ∨
    (w.extractLsb' 8 8 ≠ 0 ∧ w.extractLsb' 0 8 ≠ 0x01 ∧ w.extractLsb' 0 8 ≠ 0x16)) ∧
  (∀ (w : Word) (e : Illegal) (s : State), decode w = .error e → s.BUSY = false → s.ERR = 0 →
    commandEntry w s = .next { s with ERR := 4, BUSY := false, DONE := true, FALLBACK := false })

/-! ### The step and the command entry procedure -/

/-- A step runs the decoded command: when the oldest pending access is a write of `w` to `CMD`, the core is not busy,
the latch lets `w` through, and `w` decodes to `i`, the step is `exec i` at the state without that access, and the
write's reply is appended (R33, R95). `pending` and `replies` are the model's own, log entry 1. -/
def Obligations.StepExecutesTheDecodedCommand : Prop :=
  ∀ (s : State) (w : Word) (rest : List HostAccess) (i : Instr),
    s.pending = issue w :: rest → s.BUSY = false → (s.ERR = 0 ∨ w = 0x000000F0 ∨ w = 0x000000FF) → decode w = .ok i →
    step s = answer .written (exec i { s with pending := rest })

/-- R212: while an error is latched, a word written to `CMD` of a core that is not busy, other than exactly `CLRERR` or `SRESET` has no effect of
any kind: only the access leaves the queue and its reply is appended. Every other access of the host works as with no
error latched, but for what `STATUS` shows of `ERR`. `pending` and `replies` are the model's own, log entry 1. -/
def Obligations.LatchedErrorDropsCommands : Prop :=
  (∀ (s : State) (w : Word) (rest : List HostAccess),
    s.pending = issue w :: rest → s.BUSY = false → s.ERR ≠ 0 → w ≠ 0x000000F0 → w ≠ 0x000000FF →
    step s = .next { s with pending := rest, replies := s.replies ++ [.written] }) ∧
  (∀ (s : State) (e : Nibble) (a : HostAccess) (t : State),
    (∀ w, a ≠ .write32 0x00000000 w) → a ≠ .read32 0x00000004 → hostAccess a s = .next t →
    hostAccess a { s with ERR := e } = .next { t with ERR := e })

/-- Between accesses the core is idle and holds its state (R227). `pending` and `replies` are the model's own, log
entry 1. -/
def Obligations.IdleCoreHoldsItsState : Prop :=
  ∀ s : State, s.pending = [] → step s = .next s

/-- R216: faults do not nest. From a state with an error latched, whatever the host does next, `ERR` afterwards is the
same code or 0. `pending` and `replies` are the model's own, log entry 1. -/
def Obligations.LatchedCodeIsNeverOverwritten : Prop :=
  ∀ s t : State, s.ERR ≠ 0 → step s = .next t → t.ERR = s.ERR ∨ t.ERR = 0

/-! ### The multiplier and the tables (40_gf_and_tables.md) -/

/-- R113: `GFMUL a, b` executes and leaves `gmul(A, B)` in `GFRES`; the common flags apart it writes nothing else. -/
def Obligations.GfmulWritesTheProduct : Prop :=
  ∀ (a b : Byte) (s : State), ∃ t, exec (.gfmul a b) s = .next t ∧ t.GFRES = gmul a b ∧
    t = { s with GFRES := t.GFRES, BUSY := false, DONE := true, FALLBACK := false }

/-- R117: the laws of `gmul`. -/
def Obligations.GmulLaws : Prop :=
  gmul 0x02 0x80 = 0x1B ∧
  (∀ x, gmul 0x01 x = x) ∧
  (∀ x, gmul 0x00 x = 0x00 ∧ gmul x 0x00 = 0x00) ∧
  (∀ x, gmul 2 x = xtime x ∧ gmul 3 x = xtime x ^^^ x ∧
    gmul 9 x = xtime (xtime (xtime x)) ^^^ x ∧
    gmul 11 x = xtime (xtime (xtime x)) ^^^ xtime x ^^^ x ∧
    gmul 13 x = xtime (xtime (xtime x)) ^^^ xtime (xtime x) ^^^ x ∧
    gmul 14 x = xtime (xtime (xtime x)) ^^^ xtime (xtime x) ^^^ xtime x) ∧
  (∀ a b, gmul a b = gmul b a) ∧
  (∀ a b c, gmul a (b ^^^ c) = gmul a b ^^^ gmul a c) ∧
  (∀ a b c, gmul a (gmul b c) = gmul (gmul a b) c) ∧
  (∀ x, x ≠ 0 → ∃ y, gmul x y = 1 ∧ ∀ z, gmul x z = 1 → z = y)

/-- R118: the construction of `SBOX` from the inverse in the field and the affine map; it is a permutation, with `INV_SBOX`
(R115) as its inverse on both sides. -/
def Obligations.SboxIsTheAffineMapOfTheInverse : Prop :=
  (∀ x v : Byte, (x = 0 → v = 0) → (x ≠ 0 → gmul x v = 1) →
    sbox x = v ^^^ v.rotateLeft 1 ^^^ v.rotateLeft 2 ^^^ v.rotateLeft 3 ^^^ v.rotateLeft 4 ^^^ 0x63) ∧
  (∀ x, invSbox (sbox x) = x ∧ sbox (invSbox x) = x)

/-- R116: the round constants 1 to 10. -/
def Obligations.RoundConstantValues : Prop :=
  (List.range 10).map (fun k => rcon (k + 1)) = [0x01, 0x02, 0x04, 0x08, 0x10, 0x20, 0x40, 0x80, 0x1B, 0x36] ∧
  ∀ r, 1 ≤ r → r < 10 → rcon (r + 1) = xtime (rcon r)

/-! ### Round transforms (41_round_transforms.md) -/

/-- R130, R131: `SUBBYTES` and `INVSUBBYTES` replace each byte of `S` by its entry of the forward and the inverse table,
and change nothing else but the common flags. -/
def Obligations.SubstitutionCommands : Prop :=
  ∀ s : State,
    (∃ t, exec .subbytes s = .next t ∧ (∀ j : Fin 16, t.S[j] = sbox s.S[j]) ∧
      t = { s with S := t.S, BUSY := false, DONE := true, FALLBACK := false }) ∧
    (∃ t, exec .invsubbytes s = .next t ∧ (∀ j : Fin 16, t.S[j] = invSbox s.S[j]) ∧
      t = { s with S := t.S, BUSY := false, DONE := true, FALLBACK := false })

/-- R132, R133: `SHIFTROWS` rotates row `r` left by `r`, `INVSHIFTROWS` right by `r`: the byte that comes to column `c`
was in column `(c + r) mod 4`, and the byte that was in column `c` comes to column `(c + r) mod 4`. -/
def Obligations.RowCommands : Prop :=
  ∀ s : State,
    (∃ t, exec .shiftrows s = .next t ∧
      (∀ r c : Fin 4, t.S[4 * r.val + c.val] = s.S[4 * r.val + (c.val + r.val) % 4]) ∧
      t = { s with S := t.S, BUSY := false, DONE := true, FALLBACK := false }) ∧
    (∃ t, exec .invshiftrows s = .next t ∧
      (∀ r c : Fin 4, t.S[4 * r.val + (c.val + r.val) % 4] = s.S[4 * r.val + c.val]) ∧
      t = { s with S := t.S, BUSY := false, DONE := true, FALLBACK := false })

/-- R134 to R137: `MIXCOLUMNS` and `INVMIXCOLUMNS` replace each column of `S` by its product with the forward or the
inverse mix matrix, every output byte computed from the old `S`. The entries of the matrices are written by the formulas
of R136 and R137. The hidden scratch register `T` may change (R140). -/
def Obligations.ColumnCommands : Prop :=
  let fwd := fun i k : Nat => if k = i then (2 : Byte) else if k = (i + 1) % 4 then 3 else 1
  let inv := fun i k : Nat =>
    if k = i then (14 : Byte) else if k = (i + 1) % 4 then 11 else if k = (i + 2) % 4 then 13 else 9
  ∀ s : State,
    (∃ t, exec .mixcolumns s = .next t ∧
      (∀ i c : Fin 4, t.S[4 * i.val + c.val] = gmul (fwd i 0) s.S[c.val] ^^^ gmul (fwd i 1) s.S[4 + c.val] ^^^
        gmul (fwd i 2) s.S[8 + c.val] ^^^ gmul (fwd i 3) s.S[12 + c.val]) ∧
      t = { s with S := t.S, T := t.T, BUSY := false, DONE := true, FALLBACK := false }) ∧
    (∃ t, exec .invmixcolumns s = .next t ∧
      (∀ i c : Fin 4, t.S[4 * i.val + c.val] = gmul (inv i 0) s.S[c.val] ^^^ gmul (inv i 1) s.S[4 + c.val] ^^^
        gmul (inv i 2) s.S[8 + c.val] ^^^ gmul (inv i 3) s.S[12 + c.val]) ∧
      t = { s with S := t.S, T := t.T, BUSY := false, DONE := true, FALLBACK := false })

/-- R138, R139: `ADDROUNDKEY r` raises `Fault(5)` when no expanded key is held, then `Fault(6)` when `r > NR`; otherwise
the byte at row `k`, column `c` of `S` is exclusive-ored with byte `k` of word `4r + c` of `W`. `NR <= 14` rules out the
one value of the 4-bit field for which `W` has no such words (R24). -/
def Obligations.AddroundkeyCommand : Prop :=
  ∀ (r : Nat) (s : State),
    (s.WVALID = false → exec (.addroundkey r) s = .next (s.faulted 5)) ∧
    (s.WVALID = true → s.NR.toNat < r → exec (.addroundkey r) s = .next (s.faulted 6)) ∧
    (s.WVALID = true → ∀ (hr : r ≤ s.NR.toNat) (hn : s.NR.toNat ≤ 14),
      ∃ t, exec (.addroundkey r) s = .next t ∧
        (∀ k c : Fin 4, t.S[4 * k.val + c.val] = s.S[4 * k.val + c.val] ^^^ s.W[4 * r + c.val][k]) ∧
        t = { s with S := t.S, BUSY := false, DONE := true, FALLBACK := false })

/-- R141: the inverse pairs of the round transforms, in both orders, and the two commutations. -/
def Obligations.RoundTransformsInvertEachOther : Prop :=
  ∀ s : Block,
    (invSubBytes (subBytes s) = s ∧ subBytes (invSubBytes s) = s) ∧
    (invShiftRows (shiftRows s) = s ∧ shiftRows (invShiftRows s) = s) ∧
    (invMixColumns (mixColumns s) = s ∧ mixColumns (invMixColumns s) = s) ∧
    (∀ w r, addRoundKey (addRoundKey s w r) w r = s) ∧
    subBytes (shiftRows s) = shiftRows (subBytes s) ∧
    invSubBytes (invShiftRows s) = invShiftRows (invSubBytes s)

/-! ### Key schedule (42_key_schedule.md) -/

/-- R150 to R154: `EXPANDKEY` raises `Fault(1)` on a key length other than 16, 24, 32; otherwise, with `Nk = KLEN/4`, it
leaves `NR = Nk + 6`, `WVALID = 1`, the first `Nk` words of `W` equal to the key, each later word up to `4*(NR+1) - 1` the
one the recurrence of R152 gives, and the words above as they were. -/
def Obligations.ExpandkeyCommand : Prop :=
  ∀ s : State,
    (s.KLEN.toNat ≠ 16 → s.KLEN.toNat ≠ 24 → s.KLEN.toNat ≠ 32 → exec .expandkey s = .next (s.faulted 1)) ∧
    (s.KLEN.toNat = 16 ∨ s.KLEN.toNat = 24 ∨ s.KLEN.toNat = 32 →
      ∃ t, exec .expandkey s = .next t ∧
        t.NR.toNat = s.KLEN.toNat / 4 + 6 ∧ t.WVALID = true ∧
        (∀ i < s.KLEN.toNat / 4, ∀ k < 4, wByte t.W i k = s.KEY.getD (4 * i + k) 0) ∧
        (∀ i, s.KLEN.toNat / 4 ≤ i → i < 4 * (t.NR.toNat + 1) → ∀ k < 4,
          wByte t.W i k = wByte t.W (i - s.KLEN.toNat / 4) k ^^^
            (if i % (s.KLEN.toNat / 4) = 0 then
              sbox (wByte t.W (i - 1) ((k + 1) % 4)) ^^^ (if k = 0 then rcon (i / (s.KLEN.toNat / 4)) else 0)
            else if 6 < s.KLEN.toNat / 4 ∧ i % (s.KLEN.toNat / 4) = 4 then sbox (wByte t.W (i - 1) k)
            else wByte t.W (i - 1) k)) ∧
        (∀ i, 4 * (t.NR.toNat + 1) ≤ i → ∀ h : i < 60, t.W[i] = s.W[i]) ∧
        t = { s with W := t.W, NR := t.NR, WVALID := true, BUSY := false, DONE := true, FALLBACK := false })

/-! ### Block cipher core (43_block_cipher.md) -/

/-- R160, R161: the block functions are the round loops of the spec, as folds over the rounds in order. -/
def Obligations.BlockFunctionsAreTheRoundLoops : Prop :=
  ∀ (s : Block) (w : KeyMemory) (nr : Nat),
    encryptState s w nr =
      addRoundKey (shiftRows (subBytes ((List.range' 1 (nr - 1)).foldl
        (fun x r => addRoundKey (mixColumns (shiftRows (subBytes x))) w r) (addRoundKey s w 0)))) w nr ∧
    decryptState s w nr =
      addRoundKey (invSubBytes (invShiftRows ((List.range' 1 (nr - 1)).reverse.foldl
        (fun x r => invMixColumns (addRoundKey (invSubBytes (invShiftRows x)) w r)) (addRoundKey s w nr)))) w 0

/-- R162, R163: `ENCBLK` and `DECBLK` raise `Fault(5)` when no expanded key is held; otherwise they put `EncryptState` or
`DecryptState` of `S` under the held key into `S` and keep the key. -/
def Obligations.BlockCommands : Prop :=
  ∀ s : State,
    (s.WVALID = false → exec .encblk s = .next (s.faulted 5) ∧ exec .decblk s = .next (s.faulted 5)) ∧
    (s.WVALID = true → s.NR.toNat ≤ 14 →
      (∃ t, exec .encblk s = .next t ∧ t.S = encryptState s.S s.W s.NR.toNat ∧
        t = { s with S := t.S, T := t.T, BUSY := false, DONE := true, FALLBACK := false }) ∧
      (∃ t, exec .decblk s = .next t ∧ t.S = decryptState s.S s.W s.NR.toNat ∧
        t = { s with S := t.S, T := t.T, BUSY := false, DONE := true, FALLBACK := false }))

/-- R164: decryption undoes encryption and encryption undoes decryption, for every block under every expanded key; and so
`ENCBLK` then `DECBLK`, and `DECBLK` then `ENCBLK`, restore `S`. -/
def Obligations.DecryptionUndoesEncryption : Prop :=
  (∀ (s : Block) (w : KeyMemory) (nr : Nat),
    decryptState (encryptState s w nr) w nr = s ∧ encryptState (decryptState s w nr) w nr = s) ∧
  (∀ s : State, s.WVALID = true → s.NR.toNat ≤ 14 →
    (∃ t, runCommands [.encblk, .decblk] s = .next t ∧ t.S = s.S) ∧
    (∃ t, runCommands [.decblk, .encblk] s = .next t ∧ t.S = s.S))

/-- R165, R166: the `4*NR` primitive commands of `encblk.steps` and of `decblk.steps` leave in `S` what `ENCBLK` and
`DECBLK` leave, and none of them faults. -/
def Obligations.PrimitiveStepsEqualTheBlockCommands : Prop :=
  ∀ s : State, s.WVALID = true → s.NR = 10 ∨ s.NR = 12 ∨ s.NR = 14 → s.ERR = 0 →
    (encblkSteps s.NR.toNat).length = 4 * s.NR.toNat ∧ (decblkSteps s.NR.toNat).length = 4 * s.NR.toNat ∧
    (∃ t u, runCommands (encblkSteps s.NR.toNat) s = .next t ∧ exec .encblk s = .next u ∧ t.S = u.S ∧ t.ERR = 0) ∧
    (∃ t u, runCommands (decblkSteps s.NR.toNat) s = .next t ∧ exec .decblk s = .next u ∧ t.S = u.S ∧ t.ERR = 0)

/-! ### Padding (44_padding.md) -/

/-- R170, R171: `PAD` appends `k = 16 - (LEN mod 16)` bytes of value `k` and adds `k` to `LEN` when the padded buffer
fits, and raises `Fault(7)` when it does not; every other byte of `BUF` is unchanged. -/
def Obligations.PadCommand : Prop :=
  ∀ s : State,
    (s.LEN.toNat + (16 - s.LEN.toNat % 16) ≤ s.CAP.toNat →
      ∃ t, exec .pad s = .next t ∧ t.LEN.toNat = s.LEN.toNat + (16 - s.LEN.toNat % 16) ∧
        (∀ a, s.LEN.toNat ≤ a → a < t.LEN.toNat → t.BUF.read a = BitVec.ofNat 8 (16 - s.LEN.toNat % 16)) ∧
        (∀ a, a < s.LEN.toNat ∨ t.LEN.toNat ≤ a → t.BUF.read a = s.BUF.read a) ∧
        t = { s with BUF := t.BUF, LEN := t.LEN, BUSY := false, DONE := true, FALLBACK := false }) ∧
    (s.CAP.toNat < s.LEN.toNat + (16 - s.LEN.toNat % 16) → exec .pad s = .next (s.faulted 7))

/-- R172, R173: `UNPAD` raises `Fault(2)` on an empty buffer or a length that is not a multiple of 16; then `Fault(3)` on
a last byte `N` outside 1..16 or a byte other than `N` among the last `N`; otherwise it lowers `LEN` by `N`. `BUF` is never
written. `LEN <= CAP` is the invariant of R23. -/
def Obligations.UnpadCommand : Prop :=
  ∀ s : State, s.LEN.toNat ≤ s.CAP.toNat →
    (s.LEN.toNat = 0 ∨ s.LEN.toNat % 16 ≠ 0 → exec .unpad s = .next (s.faulted 2)) ∧
    (s.LEN.toNat ≠ 0 → s.LEN.toNat % 16 = 0 →
      ((s.BUF.read (s.LEN.toNat - 1)).toNat < 1 ∨ 16 < (s.BUF.read (s.LEN.toNat - 1)).toNat ∨
        (∃ i < (s.BUF.read (s.LEN.toNat - 1)).toNat,
          s.BUF.read (s.LEN.toNat - 1 - i) ≠ s.BUF.read (s.LEN.toNat - 1))) →
      exec .unpad s = .next (s.faulted 3)) ∧
    (validPad s.BUF.read s.LEN.toNat →
      ∃ t, exec .unpad s = .next t ∧ t.LEN.toNat = s.LEN.toNat - (s.BUF.read (s.LEN.toNat - 1)).toNat ∧
        t = { s with LEN := t.LEN, BUSY := false, DONE := true, FALLBACK := false })

/-- R174 (a), (b): where the padded buffer fits, `PAD` then `UNPAD` restores `LEN` and leaves `BUF[0..LEN-1]` unchanged,
and neither faults; in between, the length has grown by 1 to 16 to a multiple of 16. -/
def Obligations.UnpadUndoesPad : Prop :=
  ∀ s : State, s.LEN.toNat + padLen s.LEN.toNat ≤ s.CAP.toNat →
    ∃ t u, exec .pad s = .next t ∧ exec .unpad t = .next u ∧
      s.LEN.toNat < t.LEN.toNat ∧ t.LEN.toNat ≤ s.LEN.toNat + 16 ∧ t.LEN.toNat % 16 = 0 ∧
      u.LEN = s.LEN ∧ (∀ a < s.LEN.toNat, u.BUF.read a = s.BUF.read a) ∧ t.ERR = s.ERR ∧ u.ERR = s.ERR

/-! ### Stream driver (45_stream_driver.md) -/

/-- R182: `LDBLK` raises `Fault(6)` when `POS` is not a multiple of 16 or the block is not wholly below `LEN`; otherwise
the byte at row `r`, column `c` of `S` is byte `r + 4c` of the block at `POS`. `LEN <= CAP` is the invariant of R23. -/
def Obligations.LdblkCommand : Prop :=
  ∀ s : State,
    (s.POS.toNat % 16 ≠ 0 ∨ s.LEN.toNat < s.POS.toNat + 16 → exec .ldblk s = .next (s.faulted 6)) ∧
    (s.POS.toNat % 16 = 0 → s.POS.toNat + 16 ≤ s.LEN.toNat → s.LEN.toNat ≤ s.CAP.toNat →
      ∃ t, exec .ldblk s = .next t ∧
        (∀ r c : Fin 4, t.S[4 * r.val + c.val] = s.BUF.read (s.POS.toNat + (r.val + 4 * c.val))) ∧
        t = { s with S := t.S, BUSY := false, DONE := true, FALLBACK := false })

/-- R183: `STBLK` raises `Fault(6)` as `LDBLK` does; otherwise byte `r + 4c` of the block at `POS` is the byte at row `r`,
column `c` of `S`, and every byte outside `BUF[POS..POS+15]` reads as before. -/
def Obligations.StblkCommand : Prop :=
  ∀ s : State,
    (s.POS.toNat % 16 ≠ 0 ∨ s.LEN.toNat < s.POS.toNat + 16 → exec .stblk s = .next (s.faulted 6)) ∧
    (s.POS.toNat % 16 = 0 → s.POS.toNat + 16 ≤ s.LEN.toNat → s.LEN.toNat ≤ s.CAP.toNat →
      ∃ t, exec .stblk s = .next t ∧
        (∀ r c : Fin 4, t.BUF.read (s.POS.toNat + (r.val + 4 * c.val)) = s.S[4 * r.val + c.val]) ∧
        (∀ a, a < s.POS.toNat ∨ s.POS.toNat + 16 ≤ a → t.BUF.read a = s.BUF.read a) ∧
        t = { s with BUF := t.BUF, BUSY := false, DONE := true, FALLBACK := false })

/-- R180, R181, R183: the two layouts convert into each other, and `LDBLK` then `STBLK` at the same `POS` leaves every byte
of `BUF` as it was. -/
def Obligations.LoadThenStoreKeepsTheBuffer : Prop :=
  (∀ b : Block, toExternal (toInternal b) = b ∧ toInternal (toExternal b) = b) ∧
  (∀ s : State, s.POS.toNat % 16 = 0 → s.POS.toNat + 16 ≤ s.LEN.toNat → s.LEN.toNat ≤ s.CAP.toNat →
    ∃ t, runCommands [.ldblk, .stblk] s = .next t ∧ ∀ a, t.BUF.read a = s.BUF.read a)

/-- R186: `STREAMENC` raises `Fault(1)` on an invalid key length, then `Fault(7)` on a buffer whose padded form does not fit;
otherwise it pads, encrypts every 16-byte block in place and on its own, leaves every byte above the new `LEN` as it was, ends
with `POS = TOTAL = LEN`, the last block's output in `S`, no key held, and the events `Progress` (if enabled) and
`Result(LEN, 0)`. -/
def Obligations.StreamencCommand : Prop :=
  ∀ s : State,
    (s.KLEN.toNat ≠ 16 → s.KLEN.toNat ≠ 24 → s.KLEN.toNat ≠ 32 → exec .streamenc s = .next (s.streamFaulted 1)) ∧
    (s.KLEN.toNat = 16 ∨ s.KLEN.toNat = 24 ∨ s.KLEN.toNat = 32 →
      (s.CAP.toNat < s.LEN.toNat + padLen s.LEN.toNat → exec .streamenc s = .next (s.streamFaulted 7)) ∧
      (s.LEN.toNat + padLen s.LEN.toNat ≤ s.CAP.toNat →
        ∃ t, exec .streamenc s = .next t ∧
          t.LEN.toNat = s.LEN.toNat + padLen s.LEN.toNat ∧ t.POS = t.LEN ∧ t.TOTAL = t.LEN ∧
          (∀ a < t.LEN.toNat, t.BUF.read a = cryptedByte .encrypt s (paddedByte s) a) ∧
          (∀ a, t.LEN.toNat ≤ a → t.BUF.read a = s.BUF.read a) ∧
          t.S = toInternal (blockOf t.BUF.read (t.LEN.toNat / 16 - 1)) ∧
          t.EV = s.EV ++ emittedProgress s t.LEN.toNat ++ [.result t.LEN false] ∧
          t = { s with
                S := t.S, T := t.T, W := t.W, BUF := t.BUF, LEN := t.LEN, POS := t.POS, TOTAL := t.TOTAL, EV := t.EV,
                NR := 0, WVALID := false, BUSY := false, DONE := true, FALLBACK := false }))

/-- R187, R190: `STREAMDEC` raises `Fault(1)` on an invalid key length, then `Fault(2)` on a length that is not a multiple of
16; otherwise it decrypts every block in place; then, where the decrypted buffer ends in a valid pad trailer, it lowers `LEN`
by its last byte, and else keeps `LEN` and sets `FALLBACK`; no error is raised either way. `LEN <= CAP` is the invariant of
R23. -/
def Obligations.StreamdecCommand : Prop :=
  ∀ s : State,
    (s.KLEN.toNat ≠ 16 → s.KLEN.toNat ≠ 24 → s.KLEN.toNat ≠ 32 → exec .streamdec s = .next (s.streamFaulted 1)) ∧
    (s.KLEN.toNat = 16 ∨ s.KLEN.toNat = 24 ∨ s.KLEN.toNat = 32 →
      (s.LEN.toNat % 16 ≠ 0 → exec .streamdec s = .next (s.streamFaulted 2)) ∧
      (s.LEN.toNat % 16 = 0 → s.LEN.toNat ≤ s.CAP.toNat →
        ∃ t, exec .streamdec s = .next t ∧ t.POS = s.LEN ∧ t.TOTAL = s.LEN ∧
          (∀ a < s.LEN.toNat, t.BUF.read a = cryptedByte .decrypt s s.BUF.read a) ∧
          (∀ a, s.LEN.toNat ≤ a → t.BUF.read a = s.BUF.read a) ∧
          (validPad t.BUF.read s.LEN.toNat → t.FALLBACK = false ∧
            t.LEN.toNat = s.LEN.toNat - (t.BUF.read (s.LEN.toNat - 1)).toNat) ∧
          (¬ validPad t.BUF.read s.LEN.toNat → t.FALLBACK = true ∧ t.LEN = s.LEN) ∧
          (s.LEN = 0 → t.S = s.S) ∧
          (s.LEN ≠ 0 → t.S = toInternal (blockOf t.BUF.read (s.LEN.toNat / 16 - 1))) ∧
          t.EV = s.EV ++ emittedProgress s s.LEN.toNat ++ [.result t.LEN t.FALLBACK] ∧
          t = { s with
                S := t.S, T := t.T, W := t.W, BUF := t.BUF, LEN := t.LEN, POS := t.POS, TOTAL := t.TOTAL, EV := t.EV,
                NR := 0, WVALID := false, BUSY := false, DONE := true, FALLBACK := t.FALLBACK }))

/-- R188: `RAWDEC` raises the faults of `STREAMDEC`; otherwise it decrypts every block in place and does nothing to `LEN` or
`FALLBACK`. `LEN <= CAP` is the invariant of R23. -/
def Obligations.RawdecCommand : Prop :=
  ∀ s : State,
    (s.KLEN.toNat ≠ 16 → s.KLEN.toNat ≠ 24 → s.KLEN.toNat ≠ 32 → exec .rawdec s = .next (s.streamFaulted 1)) ∧
    (s.KLEN.toNat = 16 ∨ s.KLEN.toNat = 24 ∨ s.KLEN.toNat = 32 →
      (s.LEN.toNat % 16 ≠ 0 → exec .rawdec s = .next (s.streamFaulted 2)) ∧
      (s.LEN.toNat % 16 = 0 → s.LEN.toNat ≤ s.CAP.toNat →
        ∃ t, exec .rawdec s = .next t ∧ t.POS = s.LEN ∧ t.TOTAL = s.LEN ∧
          (∀ a < s.LEN.toNat, t.BUF.read a = cryptedByte .decrypt s s.BUF.read a) ∧
          (∀ a, s.LEN.toNat ≤ a → t.BUF.read a = s.BUF.read a) ∧
          (s.LEN = 0 → t.S = s.S) ∧
          (s.LEN ≠ 0 → t.S = toInternal (blockOf t.BUF.read (s.LEN.toNat / 16 - 1))) ∧
          t.EV = s.EV ++ emittedProgress s s.LEN.toNat ++ [.result s.LEN false] ∧
          t = { s with
                S := t.S, T := t.T, W := t.W, BUF := t.BUF, POS := t.POS, TOTAL := t.TOTAL, EV := t.EV,
                NR := 0, WVALID := false, BUSY := false, DONE := true, FALLBACK := false }))

/-- R192 (a): `STREAMENC` then `STREAMDEC` with the same key restores `LEN` and `BUF[0..LEN-1]`, with `FALLBACK = 0` and
no fault, for every valid key and every buffer whose padded form fits. -/
def Obligations.StreamdecUndoesStreamenc : Prop :=
  ∀ s : State, s.KLEN.toNat = 16 ∨ s.KLEN.toNat = 24 ∨ s.KLEN.toNat = 32 →
    s.LEN.toNat + padLen s.LEN.toNat ≤ s.CAP.toNat →
    ∃ t u, exec .streamenc s = .next t ∧ exec .streamdec t = .next u ∧
      u.LEN = s.LEN ∧ (∀ a < s.LEN.toNat, u.BUF.read a = s.BUF.read a) ∧ u.FALLBACK = false ∧
      t.ERR = s.ERR ∧ u.ERR = s.ERR

/-- R184, R218: the event protocol. An accepted stream-class command appends zero or more `Progress` events with strictly
increasing `p`, each with `t = TOTAL` and `p` a multiple of 2048 or `TOTAL`, the last one `(TOTAL, TOTAL)` if there is one,
and at least one when it did not raise and `PROGEN = 1`; then exactly one terminal event: `Fault(ERR)` if it raised, with no
`Progress` before it, else `Result(LEN, FALLBACK)`. `SRESET` empties `EV`; every other command, an illegal word and a dropped
word append nothing. -/
def Obligations.EventProtocol : Prop :=
  (∀ (i : Instr) (s t : State), exec i s = .next t →
    (i.isStream = true → s.ERR = 0 → ∃ ps : List Word,
      t.EV = s.EV ++ ps.map (fun p => Event.progress p t.TOTAL) ++
        [if t.ERR = 0 then .result t.LEN t.FALLBACK else .fault t.ERR] ∧
      ps.Pairwise (fun p q => p.toNat < q.toNat) ∧
      (∀ p ∈ ps, p.toNat % 2048 = 0 ∨ p = t.TOTAL) ∧
      (∀ p ∈ ps.getLast?, p = t.TOTAL) ∧
      (ps = [] ↔ t.ERR ≠ 0 ∨ s.PROGEN = false)) ∧
    (i = .sreset → t.EV = []) ∧
    (i.isStream = false → i ≠ .sreset → t.EV = s.EV)) ∧
  (∀ (w : Word) (s t : State), commandEntry w s = .next t →
    (∃ e, decode w = .error e) ∨ (s.ERR ≠ 0 ∧ w ≠ 0x000000F0 ∧ w ≠ 0x000000FF) → t.EV = s.EV)

/-- R100: with a valid key and a whole number of blocks, `EXPANDKEY` followed by `block n; ecbdec1` for every block
leaves the same `BUF` as `RAWDEC`. `pending` and `replies` are the model's own, log entry 1. -/
def Obligations.BlockByBlockEqualsRawdec : Prop :=
  ∀ s : State, s.KLEN.toNat = 16 ∨ s.KLEN.toNat = 24 ∨ s.KLEN.toNat = 32 →
    s.LEN.toNat % 16 = 0 → s.LEN.toNat ≤ s.CAP.toNat → s.BUSY = false → s.ERR = 0 →
    ∃ t u, runSteps (decryptByHand (s.LEN.toNat / 16)).length
        { s with pending := decryptByHand (s.LEN.toNat / 16) } = .next t ∧
      exec .rawdec s = .next u ∧ t.ERR = 0 ∧ ∀ a, t.BUF.read a = u.BUF.read a

/-- R189, R245: no key outlives a stream-class command that did not raise: `ENCBLK`, `DECBLK` and `ADDROUNDKEY` raise
`Fault(5)` after it. One that raises leaves the expanded key held before as it was. -/
def Obligations.StreamCommandsDiscardTheKey : Prop :=
  ∀ (i : Instr) (s t : State), i.isStream = true → s.ERR = 0 → exec i s = .next t →
    (t.ERR = 0 → exec .encblk t = .next (t.faulted 5) ∧ exec .decblk t = .next (t.faulted 5) ∧
      ∀ r, exec (.addroundkey r) t = .next (t.faulted 5)) ∧
    (t.ERR ≠ 0 → t.W = s.W ∧ t.NR = s.NR ∧ t.WVALID = s.WVALID)

/-! ### System commands, reset (46_system.md, 70_reset_and_hazards.md) -/

/-- R200: `CLRERR` clears `ERR`, and changes nothing else but the common flags. -/
def Obligations.ClrerrCommand : Prop :=
  ∀ s : State, exec .clrerr s = .next { s with ERR := 0, BUSY := false, DONE := true, FALLBACK := false }

/-- R201: `SRESET` gives every piece of state its reset value except `BUF` (and the hard-wired `CAP`), `DONE = 0`
included; the host's side stays. The hidden `T` and the unreadable `W` are left open. `pending` and `replies` are the
model's own, log entry 1. -/
def Obligations.SresetCommand : Prop :=
  ∀ s : State, ∃ t, exec .sreset s = .next t ∧
    (∀ j : Fin 16, t.S[j] = 0) ∧ (∀ i : Fin 32, t.KEY[i] = 0) ∧
    t = { s with
          S := t.S, T := t.T, KEY := t.KEY, W := t.W, KLEN := 0, NR := 0, WVALID := false, GFRES := 0, LEN := 0, POS := 0,
          TOTAL := 0, PROGEN := false, DIAG := false, BUSY := false, DONE := false, FALLBACK := false, ERR := 0, EV := [] }

/-- R59, R240: the state after power-up, for every capacity and every power-up content of `BUF`. `T` and `W` have no
reset value in the spec and are left open. `pending` and `replies` are the model's own, log entry 1. -/
def Obligations.PowerUpState : Prop :=
  ∀ (cap : Word) (buf : Memory),
    (∀ j : Fin 16, (State.powerUp cap buf).S[j] = 0) ∧ (∀ i : Fin 32, (State.powerUp cap buf).KEY[i] = 0) ∧
    State.powerUp cap buf =
      { S := (State.powerUp cap buf).S, T := (State.powerUp cap buf).T, KEY := (State.powerUp cap buf).KEY, KLEN := 0,
        W := (State.powerUp cap buf).W, NR := 0, WVALID := false, GFRES := 0, BUF := buf, LEN := 0, POS := 0, TOTAL := 0,
        PROGEN := false, DIAG := false, BUSY := false, DONE := false, FALLBACK := false, ERR := 0, EV := [], CAP := cap,
        pending := [], replies := [] }

/-- R241: what the reset state makes of the first commands, for every capacity of R9 and every power-up content of `BUF`. -/
def Obligations.FirstCommandsAfterReset : Prop :=
  ∀ (cap : Word) (buf : Memory) (s : State), validCap cap → s = State.powerUp cap buf →
    exec .expandkey s = .next (s.faulted 1) ∧
    exec .streamenc s = .next (s.streamFaulted 1) ∧ exec .streamdec s = .next (s.streamFaulted 1) ∧
    exec .rawdec s = .next (s.streamFaulted 1) ∧
    exec .encblk s = .next (s.faulted 5) ∧ exec .decblk s = .next (s.faulted 5) ∧
    (∀ r, exec (.addroundkey r) s = .next (s.faulted 5)) ∧
    exec .ldblk s = .next (s.faulted 6) ∧ exec .stblk s = .next (s.faulted 6) ∧
    exec .unpad s = .next (s.faulted 2) ∧
    (∃ t, exec .pad s = .next t ∧ t.LEN = 16 ∧ t.ERR = 0 ∧ ∀ a < 16, t.BUF.read a = 0x10) ∧
    (∃ t, exec .subbytes s = .next t ∧ ∀ j : Fin 16, t.S[j] = 0x63)

/-! ### Faults and whole-machine rules (60_exceptions.md, 10_state.md) -/

/-- R214: a raise is precise. A word that leaves an error latched, where none was before, has changed nothing but `ERR`, the
common flags and, if it is a stream-class command, `EV` by its terminal event `Fault(ERR)`. -/
def Obligations.FaultsChangeNoDataState : Prop :=
  ∀ (w : Word) (s t : State), s.ERR = 0 → commandEntry w s = .next t → t.ERR ≠ 0 →
    t = { s with
          ERR := t.ERR,
          EV := (match decode w with
            | .ok i => if i.isStream = true then s.EV ++ [.fault t.ERR] else s.EV
            | .error _ => s.EV),
          BUSY := false, DONE := true, FALLBACK := false }

/-- R211: which codes each command can raise: no other, and each of these in some state that meets the invariants. Left
out of the second half is code 6 of `ADDROUNDKEY r` with `r <= 10`: it needs `r > NR`, and a held key has `NR >= 10`
(R24). -/
def Obligations.CodesEachCommandRaises : Prop :=
  (∀ (i : Instr) (s t : State), s.ERR = 0 → exec i s = .next t → t.ERR = 0 ∨ t.ERR ∈ raisable i) ∧
  (∀ i : Instr, ∀ code ∈ raisable i, (∀ r, i = .addroundkey r → 10 < r ∨ code ≠ 6) →
    ∃ s t : State, s.Inv ∧ s.ERR = 0 ∧ exec i s = .next t ∧ t.ERR = code)

/-- R22, R24, R25, R27, R28, R30, R31, R38, R60: no command but the ones the spec names writes a register or flag. `KEY`, `KLEN`,
`CFG`, `CAP` and the host's side are written by no command (`SRESET` apart, which writes all but `CAP`, `BUF` and the
host's side); `W`, `NR`, `WVALID` by `EXPANDKEY` and the stream-class commands only; `GFRES` by `GFMUL` only; `POS`,
`TOTAL`, `EV` by the stream-class commands only; `LEN` by `PAD`, `UNPAD` and the stream-class commands only; `BUF` by
`PAD`, `STBLK` and the stream-class commands only. `pending` and `replies` are the model's own, log entry 1. -/
def Obligations.CommandsWriteOnlyTheirRegisters : Prop :=
  ∀ (i : Instr) (s t : State), exec i s = .next t →
    (t.CAP = s.CAP ∧ t.pending = s.pending ∧ t.replies = s.replies) ∧
    (i ≠ .sreset → t.KEY = s.KEY ∧ t.KLEN = s.KLEN ∧ t.PROGEN = s.PROGEN ∧ t.DIAG = s.DIAG) ∧
    (i ≠ .sreset → i ≠ .expandkey → i.isStream = false → t.W = s.W ∧ t.NR = s.NR ∧ t.WVALID = s.WVALID) ∧
    (i ≠ .sreset → (∀ a b, i ≠ .gfmul a b) → t.GFRES = s.GFRES) ∧
    (i ≠ .sreset → i.isStream = false → t.POS = s.POS ∧ t.TOTAL = s.TOTAL ∧ t.EV = s.EV) ∧
    (i ≠ .sreset → i ≠ .pad → i ≠ .unpad → i.isStream = false → t.LEN = s.LEN) ∧
    (i ≠ .pad → i ≠ .stblk → i.isStream = false → t.BUF = s.BUF)

/-- R29, R31, R95: every accepted command but `SRESET` ends with `BUSY = 0` and `DONE = 1`, `SRESET` with both 0; and only
`STREAMDEC` ends with `FALLBACK = 1`. -/
def Obligations.CommonFlagsAfterACommand : Prop :=
  ∀ (i : Instr) (s t : State), exec i s = .next t →
    t.BUSY = false ∧ (t.DONE = true ↔ i ≠ .sreset) ∧ (t.FALLBACK = true → i = .streamdec)

/-- R249: a command writes no byte of `BUF` at or above both the old and the new `LEN`, and no command but the stream-class
ones and `STBLK` writes one below the old `LEN`. -/
def Obligations.BytesOutsideTheBufferAreKept : Prop :=
  ∀ (i : Instr) (s t : State), exec i s = .next t → ∀ a,
    (s.LEN.toNat ≤ a → t.LEN.toNat ≤ a → t.BUF.read a = s.BUF.read a) ∧
    (a < s.LEN.toNat → i ≠ .stblk → i.isStream = false → t.BUF.read a = s.BUF.read a)

/-- R219, R226: `CFG` does not influence results. With other values of `PROGEN` and `DIAG` every command leaves the same
state, up to `CFG` itself and the events. -/
def Obligations.ConfigurationOnlySelectsEvents : Prop :=
  ∀ (i : Instr) (s t : State) (p d : Bool), exec i s = .next t →
    ∃ u, exec i { s with PROGEN := p, DIAG := d } = .next u ∧
      u = { t with PROGEN := u.PROGEN, DIAG := u.DIAG, EV := u.EV } ∧
      (p = s.PROGEN → u.EV = t.EV)

/-! ### The host's accesses (10_state.md, 20_memory.md) -/

/-- R34: the layout of `STATUS`. -/
def Obligations.StatusLayout : Prop :=
  ∀ s : State,
    (statusWord s).getLsbD 0 = s.BUSY ∧ (statusWord s).getLsbD 1 = s.DONE ∧ (statusWord s).getLsbD 2 = s.WVALID ∧
    (statusWord s).getLsbD 3 = s.FALLBACK ∧ (statusWord s).extractLsb' 8 4 = s.ERR ∧
    (statusWord s).extractLsb' 4 4 = 0 ∧ (statusWord s).extractLsb' 12 20 = 0

/-- R32, R33: what a 32-bit read of each control register returns while the core is not busy; no read changes anything.
`pending` and `replies` are the model's own, log entry 1. -/
def Obligations.RegisterReads : Prop :=
  ∀ s : State, s.BUSY = false →
    let reads := fun (addr v : Word) => hostAccess (.read32 addr) s = .next { s with replies := s.replies ++ [.word v] }
    reads 0x00 0 ∧ reads 0x04 (statusWord s) ∧
    (∃ v, reads 0x08 v ∧ v.toNat = s.PROGEN.toNat + 2 * s.DIAG.toNat) ∧
    (∃ v, reads 0x0C v ∧ v.toNat = s.KLEN.toNat) ∧ reads 0x10 s.LEN ∧ reads 0x14 s.POS ∧ reads 0x18 s.TOTAL ∧
    (∃ v, reads 0x1C v ∧ v.toNat = s.NR.toNat) ∧ (∃ v, reads 0x20 v ∧ v.toNat = s.GFRES.toNat) ∧ reads 0x24 s.CAP

/-- R35: what a 32-bit write of each writable register stores, while the core is not busy, an error latched or not; a
`LEN` above `BUF_CAP` is refused. `pending` and `replies` are the model's own, log entry 1. -/
def Obligations.RegisterWrites : Prop :=
  ∀ (s : State) (v : Word), s.BUSY = false →
    hostAccess (.write32 0x08 v) s =
      .next { s with PROGEN := v.getLsbD 0, DIAG := v.getLsbD 1, replies := s.replies ++ [.written] } ∧
    hostAccess (.write32 0x0C v) s = .next { s with KLEN := v.extractLsb' 0 8, replies := s.replies ++ [.written] } ∧
    (v.toNat ≤ s.CAP.toNat →
      hostAccess (.write32 0x10 v) s = .next { s with LEN := v, replies := s.replies ++ [.written] }) ∧
    (s.CAP.toNat < v.toNat →
      hostAccess (.write32 0x10 v) s = .next { s with replies := s.replies ++ [.busError] }) ∧
    hostAccess (.write32 0x14 v) s = .next { s with POS := v, replies := s.replies ++ [.written] }

/-- R36, R70: a byte write to the `KEY`, `S` or `BUF` window, while the core is not busy, changes only the byte
addressed, and a byte read there returns it; `BUF` regardless of `LEN`. The addresses are those of R70, which vector V62
contradicts in one row: log entry 8 (DEDUCED). `pending` and `replies` are the model's own, log entry 1. -/
def Obligations.WindowAccesses : Prop :=
  ∀ (s : State) (b : Byte), s.BUSY = false → s.CAP.toNat ≤ 2 ^ 31 →
    (∀ i : Fin 32,
      hostAccess (.read8 (BitVec.ofNat 32 (0x100 + i.val))) s =
        .next { s with replies := s.replies ++ [.byte s.KEY[i]] } ∧
      ∃ t, hostAccess (.write8 (BitVec.ofNat 32 (0x100 + i.val)) b) s = .next t ∧ t.KEY[i] = b ∧
        (∀ j : Fin 32, j ≠ i → t.KEY[j] = s.KEY[j]) ∧ t = { s with KEY := t.KEY, replies := s.replies ++ [.written] }) ∧
    (∀ i : Fin 16,
      hostAccess (.read8 (BitVec.ofNat 32 (0x120 + i.val))) s = .next { s with replies := s.replies ++ [.byte s.S[i]] } ∧
      ∃ t, hostAccess (.write8 (BitVec.ofNat 32 (0x120 + i.val)) b) s = .next t ∧ t.S[i] = b ∧
        (∀ j : Fin 16, j ≠ i → t.S[j] = s.S[j]) ∧ t = { s with S := t.S, replies := s.replies ++ [.written] }) ∧
    (∀ a < s.CAP.toNat,
      hostAccess (.read8 (BitVec.ofNat 32 (0x10000 + a))) s =
        .next { s with replies := s.replies ++ [.byte (s.BUF.read a)] } ∧
      ∃ t, hostAccess (.write8 (BitVec.ofNat 32 (0x10000 + a)) b) s = .next t ∧ t.BUF.read a = b ∧
        (∀ x, x ≠ a → t.BUF.read x = s.BUF.read x) ∧ t = { s with BUF := t.BUF, replies := s.replies ++ [.written] })

/-- R37: `WB[4i + k]` reads `W[i][k]`; the read succeeds only if `WVALID = 1` and `n < 16*(NR+1)`, and is otherwise
refused; a write is always refused. `pending` and `replies` are the model's own, log entry 1. -/
def Obligations.ExpandedKeyWindow : Prop :=
  ∀ (s : State) (n : Fin 240) (b : Byte), s.BUSY = false →
    (s.WVALID = true → n.val < 16 * (s.NR.toNat + 1) →
      hostAccess (.read8 (BitVec.ofNat 32 (0x200 + n.val))) s =
        .next { s with replies := s.replies ++ [.byte (s.W[n.val / 4][n.val % 4])] }) ∧
    (s.WVALID = false ∨ 16 * (s.NR.toNat + 1) ≤ n.val →
      hostAccess (.read8 (BitVec.ofNat 32 (0x200 + n.val))) s = .next { s with replies := s.replies ++ [.busError] }) ∧
    hostAccess (.write8 (BitVec.ofNat 32 (0x200 + n.val)) b) s = .next { s with replies := s.replies ++ [.busError] }

/-- R68, R228: the refused accesses: a width other than 8 and 32 bits; a 32-bit access that names no register,
misaligned ones included; a write of a read-only register; a byte access outside the windows. A refused access returns
no value and changes no state. The addresses are those of R70, which vector V62 contradicts in one row: log entry 8
(DEDUCED). `pending` and `replies` are the model's own, log entry 1. -/
def Obligations.RefusedAccessesChangeNothing : Prop :=
  ∀ (s : State) (a : HostAccess),
    ((∃ bits addr, a = .otherWidth bits addr) ∨
     (∃ addr v, (a = .read32 addr ∨ a = .write32 addr v) ∧ (addr.toNat % 4 ≠ 0 ∨ 0x28 ≤ addr.toNat)) ∨
     (∃ addr v, a = .write32 addr v ∧ addr ∈ ([0x04, 0x18, 0x1C, 0x20, 0x24] : List Word)) ∨
     (∃ addr v, (a = .read8 addr ∨ a = .write8 addr v) ∧ (addr.toNat < 0x100 ∨
       (0x130 ≤ addr.toNat ∧ addr.toNat < 0x200) ∨ (0x2F0 ≤ addr.toNat ∧ addr.toNat < 0x10000) ∨
       0x10000 + s.CAP.toNat ≤ addr.toNat))) →
    hostAccess a s = .next { s with replies := s.replies ++ [.busError] }

/-- R68, R73, R95: with `BUSY = 1` (no reachable state) every access but the reads of `STATUS`, `POS` and `TOTAL` is
refused, a write of `CMD` included, whose word has no effect: the command entry procedure ignores it too. `pending` and
`replies` are the model's own, log entry 1. -/
def Obligations.AccessesWhileBusy : Prop :=
  ∀ (s : State) (a : HostAccess), s.BUSY = true →
    (a = .read32 0x04 → hostAccess a s = .next { s with replies := s.replies ++ [.word (statusWord s)] }) ∧
    (a = .read32 0x14 → hostAccess a s = .next { s with replies := s.replies ++ [.word s.POS] }) ∧
    (a = .read32 0x18 → hostAccess a s = .next { s with replies := s.replies ++ [.word s.TOTAL] }) ∧
    (a ≠ .read32 0x04 → a ≠ .read32 0x14 → a ≠ .read32 0x18 →
      hostAccess a s = .next { s with replies := s.replies ++ [.busError] }) ∧
    (∀ w, commandEntry w s = .next s)

/-! ### Invariants -/

/-- R41: the invariants hold after power-up, for every capacity and content the parameters allow. -/
def Obligations.PowerUpMeetsTheInvariants : Prop :=
  State.reset.Inv ∧ ∀ (cap : Word) (buf : Memory), validCap cap → validBuf cap buf → (State.powerUp cap buf).Inv

/-- R41: every step, whatever the host does, keeps the invariants: `LEN <= BUF_CAP`, `NR` in {10, 12, 14} exactly while
a key is held, `ERR <= 7`, `BUSY = 0`, `TOTAL` a multiple of 16 within the capacity, and the memory list in canonical
form with no index outside `BUF`. `pending` and `replies` are the model's own, log entry 1. -/
def Obligations.StepKeepsTheInvariants : Prop :=
  ∀ s t : State, s.Inv → step s = .next t → t.Inv

/-- No state of the core hangs: from every state that meets the invariants every step, whatever the host does, answers
a next state (93_implementation_defined.md, Part 2). `pending` and `replies` are the model's own, log entry 1. -/
def Obligations.CoreNeverStops : Prop :=
  ∀ s : State, s.Inv → ∃ t, step s = .next t
end

