-- ==== Sys2Proof/Laws/Memory.lean ====
section
/-! SUPPORT. The laws of the buffer memory: what a read gives after a write, and that every operation keeps the canonical
form and the range of the indexes. -/

namespace Sys2Proof.Machine

theorem Memory.read_filter_ne (m : Memory) (a x : Nat) (h : x ≠ a) :
    Memory.read (m.filter fun c => c.1 != a) x = m.read x := by
  induction m with
  | nil => rfl
  | cons c m ih =>
    by_cases hc : c.1 = a
    · simp [List.filter, hc, Memory.read, ih, h.symm]
    · have : (c.1 != a) = true := by simpa using hc
      simp [List.filter, this, Memory.read, ih]

theorem Memory.read_filter_eq (m : Memory) (a : Nat) :
    Memory.read (m.filter fun c => c.1 != a) a = Config.bufUnlisted := by
  induction m with
  | nil => rfl
  | cons c m ih =>
    by_cases hc : c.1 = a
    · simp [List.filter, hc, ih]
    · have : (c.1 != a) = true := by simpa using hc
      simp [List.filter, this, Memory.read, hc, ih]

theorem Memory.read_insert_eq (m : Memory) (a : Nat) (v : Byte) : (Memory.insert m a v).read a = v := by
  induction m with
  | nil => simp [Memory.insert, Memory.read]
  | cons c m ih =>
    by_cases hc : c.1 < a
    · simp [Memory.insert, hc, Memory.read, ih, Nat.ne_of_lt hc]
    · simp [Memory.insert, hc, Memory.read]

theorem Memory.read_insert_ne (m : Memory) (a x : Nat) (v : Byte) (h : x ≠ a) :
    (Memory.insert m a v).read x = m.read x := by
  induction m with
  | nil => simp [Memory.insert, Memory.read, h.symm]
  | cons c m ih =>
    by_cases hc : c.1 < a
    · simp [Memory.insert, hc, Memory.read, ih]
    · simp [Memory.insert, hc, Memory.read, h.symm]

/-- A read after a write to the same index gives the value written. -/
@[simp] theorem Memory.read_write_eq (m : Memory) (a : Nat) (v : Byte) : (m.write a v).read a = v := by
  unfold Memory.write
  by_cases hv : v = Config.bufUnlisted
  · simp [hv, Memory.read_filter_eq]
  · simp [hv, Memory.read_insert_eq]

/-- A write leaves every other index alone. -/
theorem Memory.read_write_ne (m : Memory) (a x : Nat) (v : Byte) (h : x ≠ a) : (m.write a v).read x = m.read x := by
  unfold Memory.write
  by_cases hv : v = Config.bufUnlisted
  · simp [hv, Memory.read_filter_ne m a x h]
  · simp [hv, Memory.read_insert_ne _ a x v h, Memory.read_filter_ne m a x h]

/-- What a byte reads as after consecutive byte writes. -/
theorem Memory.read_writeBytes (m : Memory) (a x : Nat) (bs : List Byte) :
    (m.writeBytes a bs).read x = if h : a ≤ x ∧ x < a + bs.length then bs[x - a]'(by omega) else m.read x := by
  induction bs generalizing m a with
  | nil => simp [Memory.writeBytes]
  | cons b bs ih =>
    rw [Memory.writeBytes, ih]
    by_cases h1 : a + 1 ≤ x ∧ x < a + 1 + bs.length
    · have h2 : a ≤ x ∧ x < a + (b :: bs).length := by simp only [List.length_cons]; omega
      rw [dif_pos h1, dif_pos h2]
      have h3 : x - a = (x - (a + 1)) + 1 := by omega
      simp [h3]
    · rw [dif_neg h1]
      by_cases hx : x = a
      · subst hx; simp
      · rw [Memory.read_write_ne _ _ _ _ hx, dif_neg]
        simp only [List.length_cons]; omega

/-- What a byte reads as after a block is written. -/
theorem Memory.read_writeBlock (m : Memory) (a x : Nat) (b : Block) :
    (m.writeBlock a b).read x = if h : a ≤ x ∧ x < a + 16 then b[x - a]'(by omega) else m.read x := by
  unfold Memory.writeBlock
  rw [Memory.read_writeBytes]
  simp

@[simp] theorem Memory.getElem_readBlock (m : Memory) (a i : Nat) (h : i < 16) :
    (m.readBlock a)[i] = m.read (a + i) := by
  simp [Memory.readBlock]

theorem Memory.mem_insert (m : Memory) (a : Nat) (v : Byte) (c : Host.Cell) :
    c ∈ Memory.insert m a v → c = (a, v) ∨ c ∈ m := by
  induction m with
  | nil => simp [Memory.insert]
  | cons d m ih =>
    by_cases hd : d.1 < a
    · simp only [Memory.insert, hd, if_true, List.mem_cons]; tauto
    · simp [Memory.insert, hd]

theorem Memory.pairwise_insert (m : Memory) (a : Nat) (v : Byte) (hm : m.Pairwise fun c d => c.1 < d.1)
    (ha : ∀ c ∈ m, c.1 ≠ a) : (Memory.insert m a v).Pairwise fun c d => c.1 < d.1 := by
  induction m with
  | nil => simp [Memory.insert]
  | cons d m ih =>
    have hd' := ha d (by simp)
    rw [List.pairwise_cons] at hm
    by_cases hd : d.1 < a
    · simp only [Memory.insert, hd, if_true, List.pairwise_cons]
      refine ⟨fun c hc => ?_, ih hm.2 fun c hc => ha c (by simp [hc])⟩
      rcases Memory.mem_insert m a v c hc with rfl | hc
      · exact hd
      · exact hm.1 c hc
    · simp only [Memory.insert, hd, if_false, List.pairwise_cons, List.mem_cons]
      refine ⟨?_, hm⟩
      rintro c (rfl | hc)
      · show a < c.1; omega
      · have := hm.1 c hc; show a < c.1; omega

/-- A write keeps the canonical form. -/
theorem Memory.wf_write (m : Memory) (a : Nat) (v : Byte) (hm : m.wf) : (m.write a v).wf := by
  have hp := hm.1.filter fun c => c.1 != a
  have hn : ∀ c ∈ m.filter (fun c => c.1 != a), c.2 ≠ Config.bufUnlisted := fun c hc =>
    hm.2 c (List.mem_of_mem_filter hc)
  unfold Memory.write
  by_cases hv : v = Config.bufUnlisted
  · simp only [hv, if_true]; exact ⟨hp, hn⟩
  · simp only [hv, if_false]
    refine ⟨Memory.pairwise_insert _ _ _ hp fun c hc => ?_, fun c hc => ?_⟩
    · simpa using (List.mem_filter.mp hc).2
    · rcases Memory.mem_insert _ _ _ _ hc with rfl | hc
      · exact hv
      · exact hn c hc

/-- A write below the capacity keeps the indexes below it. -/
theorem Memory.range_write (m : Memory) (a : Nat) (v : Byte) (n : Nat) (hm : ∀ c ∈ m, c.1 < n) (ha : a < n) :
    ∀ c ∈ m.write a v, c.1 < n := by
  unfold Memory.write
  intro c hc
  by_cases hv : v = Config.bufUnlisted
  · simp only [hv, if_true] at hc; exact hm c (List.mem_of_mem_filter hc)
  · simp only [hv, if_false] at hc
    rcases Memory.mem_insert _ _ _ _ hc with rfl | hc
    · exact ha
    · exact hm c (List.mem_of_mem_filter hc)

/-- A write below the capacity keeps a buffer memory one. -/
theorem validBuf_write {cap : Word} {m : Memory} (hm : validBuf cap m) (a : Nat) (v : Byte) (ha : a < cap.toNat) :
    validBuf cap (m.write a v) :=
  ⟨m.wf_write a v hm.1, m.range_write a v _ hm.2 ha⟩

theorem validBuf_writeBytes {cap : Word} {m : Memory} (hm : validBuf cap m) (a : Nat) (bs : List Byte)
    (ha : a + bs.length ≤ cap.toNat) : validBuf cap (m.writeBytes a bs) := by
  induction bs generalizing m a with
  | nil => exact hm
  | cons b bs ih =>
    simp only [List.length_cons] at ha
    exact ih (validBuf_write hm a b (by omega)) (a + 1) (by omega)

theorem validBuf_writeBlock {cap : Word} {m : Memory} (hm : validBuf cap m) (a : Nat) (b : Block)
    (ha : a + 16 ≤ cap.toNat) : validBuf cap (m.writeBlock a b) :=
  validBuf_writeBytes hm a _ (by simpa using ha)

end Sys2Proof.Machine
end

