-- ==== Sys2Proof/Laws/Blocks.lean ====
section
/-! SUPPORT. The lanes of each block function, so that no later proof unfolds one; and the transposition as an involution. -/

namespace Sys2Proof.Machine

@[simp] theorem getElem_subBytes (s : Block) (j : Nat) (h : j < 16) : (subBytes s)[j] = sbox s[j] := by
  simp [subBytes]

@[simp] theorem getElem_invSubBytes (s : Block) (j : Nat) (h : j < 16) : (invSubBytes s)[j] = invSbox s[j] := by
  simp [invSubBytes]

theorem getElem_shiftRows (s : Block) (j : Nat) (h : j < 16) :
    (shiftRows s)[j] = s[4 * (j / 4) + (j % 4 + j / 4) % 4] := by
  simp [shiftRows]

theorem getElem_invShiftRows (s : Block) (j : Nat) (h : j < 16) :
    (invShiftRows s)[j] = s[4 * (j / 4) + (j % 4 + (4 - j / 4)) % 4] := by
  simp [invShiftRows]

theorem getElem_mixBy (m : Nat → Nat → Byte) (s : Block) (j : Nat) (h : j < 16) :
    (mixBy m s)[j] = mixByte m s (j / 4) ⟨j % 4, by omega⟩ := by
  simp [mixBy]

theorem getElem_roundKey (w : KeyMemory) (r j : Nat) (h : j < 16) :
    (roundKey w r)[j] = wByte w (4 * r + j % 4) (j / 4) := by
  simp [roundKey]

@[simp] theorem getElem_addRoundKey (s : Block) (w : KeyMemory) (r j : Nat) (h : j < 16) :
    (addRoundKey s w r)[j] = s[j] ^^^ (roundKey w r)[j] := by
  simp [addRoundKey]

theorem tau_lt {j : Nat} (h : j < 16) : tau j < 16 := by unfold tau; omega

theorem tau_tau {j : Nat} (h : j < 16) : tau (tau j) = j := by unfold tau; omega

theorem getElem_transpose (b : Block) (j : Nat) (h : j < 16) : (transpose b)[j] = b[tau j]'(tau_lt h) := by
  simp [transpose]

/-- The transposition undoes itself. -/
theorem transpose_transpose (b : Block) : transpose (transpose b) = b := by
  apply Vector.ext
  intro j h
  rw [getElem_transpose, getElem_transpose]
  simp only [tau_tau h]

theorem getElem_toInternal (b : Block) (j : Nat) (h : j < 16) : (toInternal b)[j] = b[tau j]'(tau_lt h) :=
  getElem_transpose b j h

theorem getElem_toExternal (b : Block) (j : Nat) (h : j < 16) : (toExternal b)[j] = b[tau j]'(tau_lt h) :=
  getElem_transpose b j h

theorem wByte_eq (w : KeyMemory) (i k : Nat) (hi : i < 60) (hk : k < 4) : wByte w i k = w[i][k] := by
  simp [wByte, hi, hk]

/-- The key addition undoes itself. -/
theorem addRoundKey_addRoundKey (s : Block) (w : KeyMemory) (r : Nat) : addRoundKey (addRoundKey s w r) w r = s := by
  apply Vector.ext
  intro j h
  simp

end Sys2Proof.Machine
end

