-- ==== Sys2Proof/Laws/State.lean ====
section
/-! SUPPORT. One lemma for each field of each update of the state, true by unfolding: after these no proof unfolds a record
update. -/

namespace Sys2Proof.Machine

@[simp] theorem accept_S (s : State) : (accept s).S = s.S := rfl
@[simp] theorem accept_T (s : State) : (accept s).T = s.T := rfl
@[simp] theorem accept_KEY (s : State) : (accept s).KEY = s.KEY := rfl
@[simp] theorem accept_KLEN (s : State) : (accept s).KLEN = s.KLEN := rfl
@[simp] theorem accept_W (s : State) : (accept s).W = s.W := rfl
@[simp] theorem accept_NR (s : State) : (accept s).NR = s.NR := rfl
@[simp] theorem accept_WVALID (s : State) : (accept s).WVALID = s.WVALID := rfl
@[simp] theorem accept_GFRES (s : State) : (accept s).GFRES = s.GFRES := rfl
@[simp] theorem accept_BUF (s : State) : (accept s).BUF = s.BUF := rfl
@[simp] theorem accept_LEN (s : State) : (accept s).LEN = s.LEN := rfl
@[simp] theorem accept_POS (s : State) : (accept s).POS = s.POS := rfl
@[simp] theorem accept_TOTAL (s : State) : (accept s).TOTAL = s.TOTAL := rfl
@[simp] theorem accept_PROGEN (s : State) : (accept s).PROGEN = s.PROGEN := rfl
@[simp] theorem accept_DIAG (s : State) : (accept s).DIAG = s.DIAG := rfl
@[simp] theorem accept_BUSY (s : State) : (accept s).BUSY = true := rfl
@[simp] theorem accept_DONE (s : State) : (accept s).DONE = false := rfl
@[simp] theorem accept_FALLBACK (s : State) : (accept s).FALLBACK = false := rfl
@[simp] theorem accept_ERR (s : State) : (accept s).ERR = s.ERR := rfl
@[simp] theorem accept_EV (s : State) : (accept s).EV = s.EV := rfl
@[simp] theorem accept_CAP (s : State) : (accept s).CAP = s.CAP := rfl
@[simp] theorem accept_pending (s : State) : (accept s).pending = s.pending := rfl
@[simp] theorem accept_replies (s : State) : (accept s).replies = s.replies := rfl

@[simp] theorem complete_S (s : State) : (complete s).S = s.S := rfl
@[simp] theorem complete_T (s : State) : (complete s).T = s.T := rfl
@[simp] theorem complete_KEY (s : State) : (complete s).KEY = s.KEY := rfl
@[simp] theorem complete_KLEN (s : State) : (complete s).KLEN = s.KLEN := rfl
@[simp] theorem complete_W (s : State) : (complete s).W = s.W := rfl
@[simp] theorem complete_NR (s : State) : (complete s).NR = s.NR := rfl
@[simp] theorem complete_WVALID (s : State) : (complete s).WVALID = s.WVALID := rfl
@[simp] theorem complete_GFRES (s : State) : (complete s).GFRES = s.GFRES := rfl
@[simp] theorem complete_BUF (s : State) : (complete s).BUF = s.BUF := rfl
@[simp] theorem complete_LEN (s : State) : (complete s).LEN = s.LEN := rfl
@[simp] theorem complete_POS (s : State) : (complete s).POS = s.POS := rfl
@[simp] theorem complete_TOTAL (s : State) : (complete s).TOTAL = s.TOTAL := rfl
@[simp] theorem complete_PROGEN (s : State) : (complete s).PROGEN = s.PROGEN := rfl
@[simp] theorem complete_DIAG (s : State) : (complete s).DIAG = s.DIAG := rfl
@[simp] theorem complete_BUSY (s : State) : (complete s).BUSY = false := rfl
@[simp] theorem complete_DONE (s : State) : (complete s).DONE = true := rfl
@[simp] theorem complete_FALLBACK (s : State) : (complete s).FALLBACK = s.FALLBACK := rfl
@[simp] theorem complete_ERR (s : State) : (complete s).ERR = s.ERR := rfl
@[simp] theorem complete_EV (s : State) : (complete s).EV = s.EV := rfl
@[simp] theorem complete_CAP (s : State) : (complete s).CAP = s.CAP := rfl
@[simp] theorem complete_pending (s : State) : (complete s).pending = s.pending := rfl
@[simp] theorem complete_replies (s : State) : (complete s).replies = s.replies := rfl

@[simp] theorem setFallback_S (s : State) : (setFallback s).S = s.S := rfl
@[simp] theorem setFallback_T (s : State) : (setFallback s).T = s.T := rfl
@[simp] theorem setFallback_KEY (s : State) : (setFallback s).KEY = s.KEY := rfl
@[simp] theorem setFallback_KLEN (s : State) : (setFallback s).KLEN = s.KLEN := rfl
@[simp] theorem setFallback_W (s : State) : (setFallback s).W = s.W := rfl
@[simp] theorem setFallback_NR (s : State) : (setFallback s).NR = s.NR := rfl
@[simp] theorem setFallback_WVALID (s : State) : (setFallback s).WVALID = s.WVALID := rfl
@[simp] theorem setFallback_GFRES (s : State) : (setFallback s).GFRES = s.GFRES := rfl
@[simp] theorem setFallback_BUF (s : State) : (setFallback s).BUF = s.BUF := rfl
@[simp] theorem setFallback_LEN (s : State) : (setFallback s).LEN = s.LEN := rfl
@[simp] theorem setFallback_POS (s : State) : (setFallback s).POS = s.POS := rfl
@[simp] theorem setFallback_TOTAL (s : State) : (setFallback s).TOTAL = s.TOTAL := rfl
@[simp] theorem setFallback_PROGEN (s : State) : (setFallback s).PROGEN = s.PROGEN := rfl
@[simp] theorem setFallback_DIAG (s : State) : (setFallback s).DIAG = s.DIAG := rfl
@[simp] theorem setFallback_BUSY (s : State) : (setFallback s).BUSY = s.BUSY := rfl
@[simp] theorem setFallback_DONE (s : State) : (setFallback s).DONE = s.DONE := rfl
@[simp] theorem setFallback_FALLBACK (s : State) : (setFallback s).FALLBACK = true := rfl
@[simp] theorem setFallback_ERR (s : State) : (setFallback s).ERR = s.ERR := rfl
@[simp] theorem setFallback_EV (s : State) : (setFallback s).EV = s.EV := rfl
@[simp] theorem setFallback_CAP (s : State) : (setFallback s).CAP = s.CAP := rfl
@[simp] theorem setFallback_pending (s : State) : (setFallback s).pending = s.pending := rfl
@[simp] theorem setFallback_replies (s : State) : (setFallback s).replies = s.replies := rfl

@[simp] theorem writeCfg_S (v : Word) (s : State) : (writeCfg v s).S = s.S := rfl
@[simp] theorem writeCfg_T (v : Word) (s : State) : (writeCfg v s).T = s.T := rfl
@[simp] theorem writeCfg_KEY (v : Word) (s : State) : (writeCfg v s).KEY = s.KEY := rfl
@[simp] theorem writeCfg_KLEN (v : Word) (s : State) : (writeCfg v s).KLEN = s.KLEN := rfl
@[simp] theorem writeCfg_W (v : Word) (s : State) : (writeCfg v s).W = s.W := rfl
@[simp] theorem writeCfg_NR (v : Word) (s : State) : (writeCfg v s).NR = s.NR := rfl
@[simp] theorem writeCfg_WVALID (v : Word) (s : State) : (writeCfg v s).WVALID = s.WVALID := rfl
@[simp] theorem writeCfg_GFRES (v : Word) (s : State) : (writeCfg v s).GFRES = s.GFRES := rfl
@[simp] theorem writeCfg_BUF (v : Word) (s : State) : (writeCfg v s).BUF = s.BUF := rfl
@[simp] theorem writeCfg_LEN (v : Word) (s : State) : (writeCfg v s).LEN = s.LEN := rfl
@[simp] theorem writeCfg_POS (v : Word) (s : State) : (writeCfg v s).POS = s.POS := rfl
@[simp] theorem writeCfg_TOTAL (v : Word) (s : State) : (writeCfg v s).TOTAL = s.TOTAL := rfl
@[simp] theorem writeCfg_PROGEN (v : Word) (s : State) : (writeCfg v s).PROGEN = v.getLsbD 0 := rfl
@[simp] theorem writeCfg_DIAG (v : Word) (s : State) : (writeCfg v s).DIAG = v.getLsbD 1 := rfl
@[simp] theorem writeCfg_BUSY (v : Word) (s : State) : (writeCfg v s).BUSY = s.BUSY := rfl
@[simp] theorem writeCfg_DONE (v : Word) (s : State) : (writeCfg v s).DONE = s.DONE := rfl
@[simp] theorem writeCfg_FALLBACK (v : Word) (s : State) : (writeCfg v s).FALLBACK = s.FALLBACK := rfl
@[simp] theorem writeCfg_ERR (v : Word) (s : State) : (writeCfg v s).ERR = s.ERR := rfl
@[simp] theorem writeCfg_EV (v : Word) (s : State) : (writeCfg v s).EV = s.EV := rfl
@[simp] theorem writeCfg_CAP (v : Word) (s : State) : (writeCfg v s).CAP = s.CAP := rfl
@[simp] theorem writeCfg_pending (v : Word) (s : State) : (writeCfg v s).pending = s.pending := rfl
@[simp] theorem writeCfg_replies (v : Word) (s : State) : (writeCfg v s).replies = s.replies := rfl

@[simp] theorem emit_S (e : Event) (s : State) : (emit e s).S = s.S := rfl
@[simp] theorem emit_T (e : Event) (s : State) : (emit e s).T = s.T := rfl
@[simp] theorem emit_KEY (e : Event) (s : State) : (emit e s).KEY = s.KEY := rfl
@[simp] theorem emit_KLEN (e : Event) (s : State) : (emit e s).KLEN = s.KLEN := rfl
@[simp] theorem emit_W (e : Event) (s : State) : (emit e s).W = s.W := rfl
@[simp] theorem emit_NR (e : Event) (s : State) : (emit e s).NR = s.NR := rfl
@[simp] theorem emit_WVALID (e : Event) (s : State) : (emit e s).WVALID = s.WVALID := rfl
@[simp] theorem emit_GFRES (e : Event) (s : State) : (emit e s).GFRES = s.GFRES := rfl
@[simp] theorem emit_BUF (e : Event) (s : State) : (emit e s).BUF = s.BUF := rfl
@[simp] theorem emit_LEN (e : Event) (s : State) : (emit e s).LEN = s.LEN := rfl
@[simp] theorem emit_POS (e : Event) (s : State) : (emit e s).POS = s.POS := rfl
@[simp] theorem emit_TOTAL (e : Event) (s : State) : (emit e s).TOTAL = s.TOTAL := rfl
@[simp] theorem emit_PROGEN (e : Event) (s : State) : (emit e s).PROGEN = s.PROGEN := rfl
@[simp] theorem emit_DIAG (e : Event) (s : State) : (emit e s).DIAG = s.DIAG := rfl
@[simp] theorem emit_BUSY (e : Event) (s : State) : (emit e s).BUSY = s.BUSY := rfl
@[simp] theorem emit_DONE (e : Event) (s : State) : (emit e s).DONE = s.DONE := rfl
@[simp] theorem emit_FALLBACK (e : Event) (s : State) : (emit e s).FALLBACK = s.FALLBACK := rfl
@[simp] theorem emit_ERR (e : Event) (s : State) : (emit e s).ERR = s.ERR := rfl
@[simp] theorem emit_EV (e : Event) (s : State) : (emit e s).EV = s.EV ++ [e] := rfl
@[simp] theorem emit_CAP (e : Event) (s : State) : (emit e s).CAP = s.CAP := rfl
@[simp] theorem emit_pending (e : Event) (s : State) : (emit e s).pending = s.pending := rfl
@[simp] theorem emit_replies (e : Event) (s : State) : (emit e s).replies = s.replies := rfl

@[simp] theorem returnFromFault_S (s : State) : (returnFromFault s).S = s.S := rfl
@[simp] theorem returnFromFault_T (s : State) : (returnFromFault s).T = s.T := rfl
@[simp] theorem returnFromFault_KEY (s : State) : (returnFromFault s).KEY = s.KEY := rfl
@[simp] theorem returnFromFault_KLEN (s : State) : (returnFromFault s).KLEN = s.KLEN := rfl
@[simp] theorem returnFromFault_W (s : State) : (returnFromFault s).W = s.W := rfl
@[simp] theorem returnFromFault_NR (s : State) : (returnFromFault s).NR = s.NR := rfl
@[simp] theorem returnFromFault_WVALID (s : State) : (returnFromFault s).WVALID = s.WVALID := rfl
@[simp] theorem returnFromFault_GFRES (s : State) : (returnFromFault s).GFRES = s.GFRES := rfl
@[simp] theorem returnFromFault_BUF (s : State) : (returnFromFault s).BUF = s.BUF := rfl
@[simp] theorem returnFromFault_LEN (s : State) : (returnFromFault s).LEN = s.LEN := rfl
@[simp] theorem returnFromFault_POS (s : State) : (returnFromFault s).POS = s.POS := rfl
@[simp] theorem returnFromFault_TOTAL (s : State) : (returnFromFault s).TOTAL = s.TOTAL := rfl
@[simp] theorem returnFromFault_PROGEN (s : State) : (returnFromFault s).PROGEN = s.PROGEN := rfl
@[simp] theorem returnFromFault_DIAG (s : State) : (returnFromFault s).DIAG = s.DIAG := rfl
@[simp] theorem returnFromFault_BUSY (s : State) : (returnFromFault s).BUSY = s.BUSY := rfl
@[simp] theorem returnFromFault_DONE (s : State) : (returnFromFault s).DONE = s.DONE := rfl
@[simp] theorem returnFromFault_FALLBACK (s : State) : (returnFromFault s).FALLBACK = s.FALLBACK := rfl
@[simp] theorem returnFromFault_ERR (s : State) : (returnFromFault s).ERR = 0 := rfl
@[simp] theorem returnFromFault_EV (s : State) : (returnFromFault s).EV = s.EV := rfl
@[simp] theorem returnFromFault_CAP (s : State) : (returnFromFault s).CAP = s.CAP := rfl
@[simp] theorem returnFromFault_pending (s : State) : (returnFromFault s).pending = s.pending := rfl
@[simp] theorem returnFromFault_replies (s : State) : (returnFromFault s).replies = s.replies := rfl

@[simp] theorem setS_S (b : Block) (s : State) : (setS b s).S = b := by rw [setS]
@[simp] theorem setS_T (b : Block) (s : State) : (setS b s).T = s.T := by rw [setS]
@[simp] theorem setS_KEY (b : Block) (s : State) : (setS b s).KEY = s.KEY := by rw [setS]
@[simp] theorem setS_KLEN (b : Block) (s : State) : (setS b s).KLEN = s.KLEN := by rw [setS]
@[simp] theorem setS_W (b : Block) (s : State) : (setS b s).W = s.W := by rw [setS]
@[simp] theorem setS_NR (b : Block) (s : State) : (setS b s).NR = s.NR := by rw [setS]
@[simp] theorem setS_WVALID (b : Block) (s : State) : (setS b s).WVALID = s.WVALID := by rw [setS]
@[simp] theorem setS_GFRES (b : Block) (s : State) : (setS b s).GFRES = s.GFRES := by rw [setS]
@[simp] theorem setS_BUF (b : Block) (s : State) : (setS b s).BUF = s.BUF := by rw [setS]
@[simp] theorem setS_LEN (b : Block) (s : State) : (setS b s).LEN = s.LEN := by rw [setS]
@[simp] theorem setS_POS (b : Block) (s : State) : (setS b s).POS = s.POS := by rw [setS]
@[simp] theorem setS_TOTAL (b : Block) (s : State) : (setS b s).TOTAL = s.TOTAL := by rw [setS]
@[simp] theorem setS_PROGEN (b : Block) (s : State) : (setS b s).PROGEN = s.PROGEN := by rw [setS]
@[simp] theorem setS_DIAG (b : Block) (s : State) : (setS b s).DIAG = s.DIAG := by rw [setS]
@[simp] theorem setS_BUSY (b : Block) (s : State) : (setS b s).BUSY = s.BUSY := by rw [setS]
@[simp] theorem setS_DONE (b : Block) (s : State) : (setS b s).DONE = s.DONE := by rw [setS]
@[simp] theorem setS_FALLBACK (b : Block) (s : State) : (setS b s).FALLBACK = s.FALLBACK := by rw [setS]
@[simp] theorem setS_ERR (b : Block) (s : State) : (setS b s).ERR = s.ERR := by rw [setS]
@[simp] theorem setS_EV (b : Block) (s : State) : (setS b s).EV = s.EV := by rw [setS]
@[simp] theorem setS_CAP (b : Block) (s : State) : (setS b s).CAP = s.CAP := by rw [setS]
@[simp] theorem setS_pending (b : Block) (s : State) : (setS b s).pending = s.pending := by rw [setS]
@[simp] theorem setS_replies (b : Block) (s : State) : (setS b s).replies = s.replies := by rw [setS]

@[simp] theorem setSThroughT_S (b : Block) (s : State) : (setSThroughT b s).S = b := by rw [setSThroughT]
@[simp] theorem setSThroughT_T (b : Block) (s : State) : (setSThroughT b s).T = b := by rw [setSThroughT]
@[simp] theorem setSThroughT_KEY (b : Block) (s : State) : (setSThroughT b s).KEY = s.KEY := by rw [setSThroughT]
@[simp] theorem setSThroughT_KLEN (b : Block) (s : State) : (setSThroughT b s).KLEN = s.KLEN := by rw [setSThroughT]
@[simp] theorem setSThroughT_W (b : Block) (s : State) : (setSThroughT b s).W = s.W := by rw [setSThroughT]
@[simp] theorem setSThroughT_NR (b : Block) (s : State) : (setSThroughT b s).NR = s.NR := by rw [setSThroughT]
@[simp] theorem setSThroughT_WVALID (b : Block) (s : State) : (setSThroughT b s).WVALID = s.WVALID := by rw [setSThroughT]
@[simp] theorem setSThroughT_GFRES (b : Block) (s : State) : (setSThroughT b s).GFRES = s.GFRES := by rw [setSThroughT]
@[simp] theorem setSThroughT_BUF (b : Block) (s : State) : (setSThroughT b s).BUF = s.BUF := by rw [setSThroughT]
@[simp] theorem setSThroughT_LEN (b : Block) (s : State) : (setSThroughT b s).LEN = s.LEN := by rw [setSThroughT]
@[simp] theorem setSThroughT_POS (b : Block) (s : State) : (setSThroughT b s).POS = s.POS := by rw [setSThroughT]
@[simp] theorem setSThroughT_TOTAL (b : Block) (s : State) : (setSThroughT b s).TOTAL = s.TOTAL := by rw [setSThroughT]
@[simp] theorem setSThroughT_PROGEN (b : Block) (s : State) : (setSThroughT b s).PROGEN = s.PROGEN := by rw [setSThroughT]
@[simp] theorem setSThroughT_DIAG (b : Block) (s : State) : (setSThroughT b s).DIAG = s.DIAG := by rw [setSThroughT]
@[simp] theorem setSThroughT_BUSY (b : Block) (s : State) : (setSThroughT b s).BUSY = s.BUSY := by rw [setSThroughT]
@[simp] theorem setSThroughT_DONE (b : Block) (s : State) : (setSThroughT b s).DONE = s.DONE := by rw [setSThroughT]
@[simp] theorem setSThroughT_FALLBACK (b : Block) (s : State) : (setSThroughT b s).FALLBACK = s.FALLBACK := by rw [setSThroughT]
@[simp] theorem setSThroughT_ERR (b : Block) (s : State) : (setSThroughT b s).ERR = s.ERR := by rw [setSThroughT]
@[simp] theorem setSThroughT_EV (b : Block) (s : State) : (setSThroughT b s).EV = s.EV := by rw [setSThroughT]
@[simp] theorem setSThroughT_CAP (b : Block) (s : State) : (setSThroughT b s).CAP = s.CAP := by rw [setSThroughT]
@[simp] theorem setSThroughT_pending (b : Block) (s : State) : (setSThroughT b s).pending = s.pending := by rw [setSThroughT]
@[simp] theorem setSThroughT_replies (b : Block) (s : State) : (setSThroughT b s).replies = s.replies := by rw [setSThroughT]

@[simp] theorem loadExpandedKey_S (s : State) : (loadExpandedKey s).S = s.S := by rw [loadExpandedKey]
@[simp] theorem loadExpandedKey_T (s : State) : (loadExpandedKey s).T = s.T := by rw [loadExpandedKey]
@[simp] theorem loadExpandedKey_KEY (s : State) : (loadExpandedKey s).KEY = s.KEY := by rw [loadExpandedKey]
@[simp] theorem loadExpandedKey_KLEN (s : State) : (loadExpandedKey s).KLEN = s.KLEN := by rw [loadExpandedKey]
@[simp] theorem loadExpandedKey_W (s : State) : (loadExpandedKey s).W = loadWords s.W (expandKey s.KEY s.KLEN) := by rw [loadExpandedKey]
@[simp] theorem loadExpandedKey_NR (s : State) : (loadExpandedKey s).NR = BitVec.ofNat 4 (nrOf s.KLEN) := by rw [loadExpandedKey]
@[simp] theorem loadExpandedKey_WVALID (s : State) : (loadExpandedKey s).WVALID = true := by rw [loadExpandedKey]
@[simp] theorem loadExpandedKey_GFRES (s : State) : (loadExpandedKey s).GFRES = s.GFRES := by rw [loadExpandedKey]
@[simp] theorem loadExpandedKey_BUF (s : State) : (loadExpandedKey s).BUF = s.BUF := by rw [loadExpandedKey]
@[simp] theorem loadExpandedKey_LEN (s : State) : (loadExpandedKey s).LEN = s.LEN := by rw [loadExpandedKey]
@[simp] theorem loadExpandedKey_POS (s : State) : (loadExpandedKey s).POS = s.POS := by rw [loadExpandedKey]
@[simp] theorem loadExpandedKey_TOTAL (s : State) : (loadExpandedKey s).TOTAL = s.TOTAL := by rw [loadExpandedKey]
@[simp] theorem loadExpandedKey_PROGEN (s : State) : (loadExpandedKey s).PROGEN = s.PROGEN := by rw [loadExpandedKey]
@[simp] theorem loadExpandedKey_DIAG (s : State) : (loadExpandedKey s).DIAG = s.DIAG := by rw [loadExpandedKey]
@[simp] theorem loadExpandedKey_BUSY (s : State) : (loadExpandedKey s).BUSY = s.BUSY := by rw [loadExpandedKey]
@[simp] theorem loadExpandedKey_DONE (s : State) : (loadExpandedKey s).DONE = s.DONE := by rw [loadExpandedKey]
@[simp] theorem loadExpandedKey_FALLBACK (s : State) : (loadExpandedKey s).FALLBACK = s.FALLBACK := by rw [loadExpandedKey]
@[simp] theorem loadExpandedKey_ERR (s : State) : (loadExpandedKey s).ERR = s.ERR := by rw [loadExpandedKey]
@[simp] theorem loadExpandedKey_EV (s : State) : (loadExpandedKey s).EV = s.EV := by rw [loadExpandedKey]
@[simp] theorem loadExpandedKey_CAP (s : State) : (loadExpandedKey s).CAP = s.CAP := by rw [loadExpandedKey]
@[simp] theorem loadExpandedKey_pending (s : State) : (loadExpandedKey s).pending = s.pending := by rw [loadExpandedKey]
@[simp] theorem loadExpandedKey_replies (s : State) : (loadExpandedKey s).replies = s.replies := by rw [loadExpandedKey]

@[simp] theorem discardKey_S (s : State) : (discardKey s).S = s.S := rfl
@[simp] theorem discardKey_T (s : State) : (discardKey s).T = s.T := rfl
@[simp] theorem discardKey_KEY (s : State) : (discardKey s).KEY = s.KEY := rfl
@[simp] theorem discardKey_KLEN (s : State) : (discardKey s).KLEN = s.KLEN := rfl
@[simp] theorem discardKey_W (s : State) : (discardKey s).W = s.W := rfl
@[simp] theorem discardKey_NR (s : State) : (discardKey s).NR = 0 := rfl
@[simp] theorem discardKey_WVALID (s : State) : (discardKey s).WVALID = false := rfl
@[simp] theorem discardKey_GFRES (s : State) : (discardKey s).GFRES = s.GFRES := rfl
@[simp] theorem discardKey_BUF (s : State) : (discardKey s).BUF = s.BUF := rfl
@[simp] theorem discardKey_LEN (s : State) : (discardKey s).LEN = s.LEN := rfl
@[simp] theorem discardKey_POS (s : State) : (discardKey s).POS = s.POS := rfl
@[simp] theorem discardKey_TOTAL (s : State) : (discardKey s).TOTAL = s.TOTAL := rfl
@[simp] theorem discardKey_PROGEN (s : State) : (discardKey s).PROGEN = s.PROGEN := rfl
@[simp] theorem discardKey_DIAG (s : State) : (discardKey s).DIAG = s.DIAG := rfl
@[simp] theorem discardKey_BUSY (s : State) : (discardKey s).BUSY = s.BUSY := rfl
@[simp] theorem discardKey_DONE (s : State) : (discardKey s).DONE = s.DONE := rfl
@[simp] theorem discardKey_FALLBACK (s : State) : (discardKey s).FALLBACK = s.FALLBACK := rfl
@[simp] theorem discardKey_ERR (s : State) : (discardKey s).ERR = s.ERR := rfl
@[simp] theorem discardKey_EV (s : State) : (discardKey s).EV = s.EV := rfl
@[simp] theorem discardKey_CAP (s : State) : (discardKey s).CAP = s.CAP := rfl
@[simp] theorem discardKey_pending (s : State) : (discardKey s).pending = s.pending := rfl
@[simp] theorem discardKey_replies (s : State) : (discardKey s).replies = s.replies := rfl

@[simp] theorem cryptS_S (d : Direction) (s : State) : (cryptS d s).S = cryptState d s.S s.W s.NR.toNat := by rw [cryptS]
@[simp] theorem cryptS_T (d : Direction) (s : State) : (cryptS d s).T = scratchAfter d s.T s.S s.W s.NR.toNat := by rw [cryptS]
@[simp] theorem cryptS_KEY (d : Direction) (s : State) : (cryptS d s).KEY = s.KEY := by rw [cryptS]
@[simp] theorem cryptS_KLEN (d : Direction) (s : State) : (cryptS d s).KLEN = s.KLEN := by rw [cryptS]
@[simp] theorem cryptS_W (d : Direction) (s : State) : (cryptS d s).W = s.W := by rw [cryptS]
@[simp] theorem cryptS_NR (d : Direction) (s : State) : (cryptS d s).NR = s.NR := by rw [cryptS]
@[simp] theorem cryptS_WVALID (d : Direction) (s : State) : (cryptS d s).WVALID = s.WVALID := by rw [cryptS]
@[simp] theorem cryptS_GFRES (d : Direction) (s : State) : (cryptS d s).GFRES = s.GFRES := by rw [cryptS]
@[simp] theorem cryptS_BUF (d : Direction) (s : State) : (cryptS d s).BUF = s.BUF := by rw [cryptS]
@[simp] theorem cryptS_LEN (d : Direction) (s : State) : (cryptS d s).LEN = s.LEN := by rw [cryptS]
@[simp] theorem cryptS_POS (d : Direction) (s : State) : (cryptS d s).POS = s.POS := by rw [cryptS]
@[simp] theorem cryptS_TOTAL (d : Direction) (s : State) : (cryptS d s).TOTAL = s.TOTAL := by rw [cryptS]
@[simp] theorem cryptS_PROGEN (d : Direction) (s : State) : (cryptS d s).PROGEN = s.PROGEN := by rw [cryptS]
@[simp] theorem cryptS_DIAG (d : Direction) (s : State) : (cryptS d s).DIAG = s.DIAG := by rw [cryptS]
@[simp] theorem cryptS_BUSY (d : Direction) (s : State) : (cryptS d s).BUSY = s.BUSY := by rw [cryptS]
@[simp] theorem cryptS_DONE (d : Direction) (s : State) : (cryptS d s).DONE = s.DONE := by rw [cryptS]
@[simp] theorem cryptS_FALLBACK (d : Direction) (s : State) : (cryptS d s).FALLBACK = s.FALLBACK := by rw [cryptS]
@[simp] theorem cryptS_ERR (d : Direction) (s : State) : (cryptS d s).ERR = s.ERR := by rw [cryptS]
@[simp] theorem cryptS_EV (d : Direction) (s : State) : (cryptS d s).EV = s.EV := by rw [cryptS]
@[simp] theorem cryptS_CAP (d : Direction) (s : State) : (cryptS d s).CAP = s.CAP := by rw [cryptS]
@[simp] theorem cryptS_pending (d : Direction) (s : State) : (cryptS d s).pending = s.pending := by rw [cryptS]
@[simp] theorem cryptS_replies (d : Direction) (s : State) : (cryptS d s).replies = s.replies := by rw [cryptS]

@[simp] theorem padBuffer_S (s : State) : (padBuffer s).S = s.S := by rw [padBuffer]
@[simp] theorem padBuffer_T (s : State) : (padBuffer s).T = s.T := by rw [padBuffer]
@[simp] theorem padBuffer_KEY (s : State) : (padBuffer s).KEY = s.KEY := by rw [padBuffer]
@[simp] theorem padBuffer_KLEN (s : State) : (padBuffer s).KLEN = s.KLEN := by rw [padBuffer]
@[simp] theorem padBuffer_W (s : State) : (padBuffer s).W = s.W := by rw [padBuffer]
@[simp] theorem padBuffer_NR (s : State) : (padBuffer s).NR = s.NR := by rw [padBuffer]
@[simp] theorem padBuffer_WVALID (s : State) : (padBuffer s).WVALID = s.WVALID := by rw [padBuffer]
@[simp] theorem padBuffer_GFRES (s : State) : (padBuffer s).GFRES = s.GFRES := by rw [padBuffer]
@[simp] theorem padBuffer_BUF (s : State) : (padBuffer s).BUF = s.BUF.writeBytes s.LEN.toNat (List.replicate (padLen s.LEN.toNat) (BitVec.ofNat 8 (padLen s.LEN.toNat))) := by rw [padBuffer]
@[simp] theorem padBuffer_LEN (s : State) : (padBuffer s).LEN = BitVec.ofNat 32 (s.LEN.toNat + padLen s.LEN.toNat) := by rw [padBuffer]
@[simp] theorem padBuffer_POS (s : State) : (padBuffer s).POS = s.POS := by rw [padBuffer]
@[simp] theorem padBuffer_TOTAL (s : State) : (padBuffer s).TOTAL = s.TOTAL := by rw [padBuffer]
@[simp] theorem padBuffer_PROGEN (s : State) : (padBuffer s).PROGEN = s.PROGEN := by rw [padBuffer]
@[simp] theorem padBuffer_DIAG (s : State) : (padBuffer s).DIAG = s.DIAG := by rw [padBuffer]
@[simp] theorem padBuffer_BUSY (s : State) : (padBuffer s).BUSY = s.BUSY := by rw [padBuffer]
@[simp] theorem padBuffer_DONE (s : State) : (padBuffer s).DONE = s.DONE := by rw [padBuffer]
@[simp] theorem padBuffer_FALLBACK (s : State) : (padBuffer s).FALLBACK = s.FALLBACK := by rw [padBuffer]
@[simp] theorem padBuffer_ERR (s : State) : (padBuffer s).ERR = s.ERR := by rw [padBuffer]
@[simp] theorem padBuffer_EV (s : State) : (padBuffer s).EV = s.EV := by rw [padBuffer]
@[simp] theorem padBuffer_CAP (s : State) : (padBuffer s).CAP = s.CAP := by rw [padBuffer]
@[simp] theorem padBuffer_pending (s : State) : (padBuffer s).pending = s.pending := by rw [padBuffer]
@[simp] theorem padBuffer_replies (s : State) : (padBuffer s).replies = s.replies := by rw [padBuffer]

@[simp] theorem unpadBuffer_S (s : State) : (unpadBuffer s).S = s.S := by rw [unpadBuffer]
@[simp] theorem unpadBuffer_T (s : State) : (unpadBuffer s).T = s.T := by rw [unpadBuffer]
@[simp] theorem unpadBuffer_KEY (s : State) : (unpadBuffer s).KEY = s.KEY := by rw [unpadBuffer]
@[simp] theorem unpadBuffer_KLEN (s : State) : (unpadBuffer s).KLEN = s.KLEN := by rw [unpadBuffer]
@[simp] theorem unpadBuffer_W (s : State) : (unpadBuffer s).W = s.W := by rw [unpadBuffer]
@[simp] theorem unpadBuffer_NR (s : State) : (unpadBuffer s).NR = s.NR := by rw [unpadBuffer]
@[simp] theorem unpadBuffer_WVALID (s : State) : (unpadBuffer s).WVALID = s.WVALID := by rw [unpadBuffer]
@[simp] theorem unpadBuffer_GFRES (s : State) : (unpadBuffer s).GFRES = s.GFRES := by rw [unpadBuffer]
@[simp] theorem unpadBuffer_BUF (s : State) : (unpadBuffer s).BUF = s.BUF := by rw [unpadBuffer]
@[simp] theorem unpadBuffer_LEN (s : State) : (unpadBuffer s).LEN = BitVec.ofNat 32 (s.LEN.toNat - (s.BUF.read (s.LEN.toNat - 1)).toNat) := by rw [unpadBuffer]
@[simp] theorem unpadBuffer_POS (s : State) : (unpadBuffer s).POS = s.POS := by rw [unpadBuffer]
@[simp] theorem unpadBuffer_TOTAL (s : State) : (unpadBuffer s).TOTAL = s.TOTAL := by rw [unpadBuffer]
@[simp] theorem unpadBuffer_PROGEN (s : State) : (unpadBuffer s).PROGEN = s.PROGEN := by rw [unpadBuffer]
@[simp] theorem unpadBuffer_DIAG (s : State) : (unpadBuffer s).DIAG = s.DIAG := by rw [unpadBuffer]
@[simp] theorem unpadBuffer_BUSY (s : State) : (unpadBuffer s).BUSY = s.BUSY := by rw [unpadBuffer]
@[simp] theorem unpadBuffer_DONE (s : State) : (unpadBuffer s).DONE = s.DONE := by rw [unpadBuffer]
@[simp] theorem unpadBuffer_FALLBACK (s : State) : (unpadBuffer s).FALLBACK = s.FALLBACK := by rw [unpadBuffer]
@[simp] theorem unpadBuffer_ERR (s : State) : (unpadBuffer s).ERR = s.ERR := by rw [unpadBuffer]
@[simp] theorem unpadBuffer_EV (s : State) : (unpadBuffer s).EV = s.EV := by rw [unpadBuffer]
@[simp] theorem unpadBuffer_CAP (s : State) : (unpadBuffer s).CAP = s.CAP := by rw [unpadBuffer]
@[simp] theorem unpadBuffer_pending (s : State) : (unpadBuffer s).pending = s.pending := by rw [unpadBuffer]
@[simp] theorem unpadBuffer_replies (s : State) : (unpadBuffer s).replies = s.replies := by rw [unpadBuffer]

@[simp] theorem loadBlock_S (s : State) : (loadBlock s).S = toInternal (s.BUF.readBlock s.POS.toNat) := by rw [loadBlock]
@[simp] theorem loadBlock_T (s : State) : (loadBlock s).T = s.T := by rw [loadBlock]
@[simp] theorem loadBlock_KEY (s : State) : (loadBlock s).KEY = s.KEY := by rw [loadBlock]
@[simp] theorem loadBlock_KLEN (s : State) : (loadBlock s).KLEN = s.KLEN := by rw [loadBlock]
@[simp] theorem loadBlock_W (s : State) : (loadBlock s).W = s.W := by rw [loadBlock]
@[simp] theorem loadBlock_NR (s : State) : (loadBlock s).NR = s.NR := by rw [loadBlock]
@[simp] theorem loadBlock_WVALID (s : State) : (loadBlock s).WVALID = s.WVALID := by rw [loadBlock]
@[simp] theorem loadBlock_GFRES (s : State) : (loadBlock s).GFRES = s.GFRES := by rw [loadBlock]
@[simp] theorem loadBlock_BUF (s : State) : (loadBlock s).BUF = s.BUF := by rw [loadBlock]
@[simp] theorem loadBlock_LEN (s : State) : (loadBlock s).LEN = s.LEN := by rw [loadBlock]
@[simp] theorem loadBlock_POS (s : State) : (loadBlock s).POS = s.POS := by rw [loadBlock]
@[simp] theorem loadBlock_TOTAL (s : State) : (loadBlock s).TOTAL = s.TOTAL := by rw [loadBlock]
@[simp] theorem loadBlock_PROGEN (s : State) : (loadBlock s).PROGEN = s.PROGEN := by rw [loadBlock]
@[simp] theorem loadBlock_DIAG (s : State) : (loadBlock s).DIAG = s.DIAG := by rw [loadBlock]
@[simp] theorem loadBlock_BUSY (s : State) : (loadBlock s).BUSY = s.BUSY := by rw [loadBlock]
@[simp] theorem loadBlock_DONE (s : State) : (loadBlock s).DONE = s.DONE := by rw [loadBlock]
@[simp] theorem loadBlock_FALLBACK (s : State) : (loadBlock s).FALLBACK = s.FALLBACK := by rw [loadBlock]
@[simp] theorem loadBlock_ERR (s : State) : (loadBlock s).ERR = s.ERR := by rw [loadBlock]
@[simp] theorem loadBlock_EV (s : State) : (loadBlock s).EV = s.EV := by rw [loadBlock]
@[simp] theorem loadBlock_CAP (s : State) : (loadBlock s).CAP = s.CAP := by rw [loadBlock]
@[simp] theorem loadBlock_pending (s : State) : (loadBlock s).pending = s.pending := by rw [loadBlock]
@[simp] theorem loadBlock_replies (s : State) : (loadBlock s).replies = s.replies := by rw [loadBlock]

@[simp] theorem storeBlock_S (s : State) : (storeBlock s).S = s.S := by rw [storeBlock]
@[simp] theorem storeBlock_T (s : State) : (storeBlock s).T = s.T := by rw [storeBlock]
@[simp] theorem storeBlock_KEY (s : State) : (storeBlock s).KEY = s.KEY := by rw [storeBlock]
@[simp] theorem storeBlock_KLEN (s : State) : (storeBlock s).KLEN = s.KLEN := by rw [storeBlock]
@[simp] theorem storeBlock_W (s : State) : (storeBlock s).W = s.W := by rw [storeBlock]
@[simp] theorem storeBlock_NR (s : State) : (storeBlock s).NR = s.NR := by rw [storeBlock]
@[simp] theorem storeBlock_WVALID (s : State) : (storeBlock s).WVALID = s.WVALID := by rw [storeBlock]
@[simp] theorem storeBlock_GFRES (s : State) : (storeBlock s).GFRES = s.GFRES := by rw [storeBlock]
@[simp] theorem storeBlock_BUF (s : State) : (storeBlock s).BUF = s.BUF.writeBlock s.POS.toNat (toExternal s.S) := by rw [storeBlock]
@[simp] theorem storeBlock_LEN (s : State) : (storeBlock s).LEN = s.LEN := by rw [storeBlock]
@[simp] theorem storeBlock_POS (s : State) : (storeBlock s).POS = s.POS := by rw [storeBlock]
@[simp] theorem storeBlock_TOTAL (s : State) : (storeBlock s).TOTAL = s.TOTAL := by rw [storeBlock]
@[simp] theorem storeBlock_PROGEN (s : State) : (storeBlock s).PROGEN = s.PROGEN := by rw [storeBlock]
@[simp] theorem storeBlock_DIAG (s : State) : (storeBlock s).DIAG = s.DIAG := by rw [storeBlock]
@[simp] theorem storeBlock_BUSY (s : State) : (storeBlock s).BUSY = s.BUSY := by rw [storeBlock]
@[simp] theorem storeBlock_DONE (s : State) : (storeBlock s).DONE = s.DONE := by rw [storeBlock]
@[simp] theorem storeBlock_FALLBACK (s : State) : (storeBlock s).FALLBACK = s.FALLBACK := by rw [storeBlock]
@[simp] theorem storeBlock_ERR (s : State) : (storeBlock s).ERR = s.ERR := by rw [storeBlock]
@[simp] theorem storeBlock_EV (s : State) : (storeBlock s).EV = s.EV := by rw [storeBlock]
@[simp] theorem storeBlock_CAP (s : State) : (storeBlock s).CAP = s.CAP := by rw [storeBlock]
@[simp] theorem storeBlock_pending (s : State) : (storeBlock s).pending = s.pending := by rw [storeBlock]
@[simp] theorem storeBlock_replies (s : State) : (storeBlock s).replies = s.replies := by rw [storeBlock]

@[simp] theorem advancePos_S (s : State) : (advancePos s).S = s.S := by rw [advancePos]
@[simp] theorem advancePos_T (s : State) : (advancePos s).T = s.T := by rw [advancePos]
@[simp] theorem advancePos_KEY (s : State) : (advancePos s).KEY = s.KEY := by rw [advancePos]
@[simp] theorem advancePos_KLEN (s : State) : (advancePos s).KLEN = s.KLEN := by rw [advancePos]
@[simp] theorem advancePos_W (s : State) : (advancePos s).W = s.W := by rw [advancePos]
@[simp] theorem advancePos_NR (s : State) : (advancePos s).NR = s.NR := by rw [advancePos]
@[simp] theorem advancePos_WVALID (s : State) : (advancePos s).WVALID = s.WVALID := by rw [advancePos]
@[simp] theorem advancePos_GFRES (s : State) : (advancePos s).GFRES = s.GFRES := by rw [advancePos]
@[simp] theorem advancePos_BUF (s : State) : (advancePos s).BUF = s.BUF := by rw [advancePos]
@[simp] theorem advancePos_LEN (s : State) : (advancePos s).LEN = s.LEN := by rw [advancePos]
@[simp] theorem advancePos_POS (s : State) : (advancePos s).POS = s.POS + 16 := by rw [advancePos]
@[simp] theorem advancePos_TOTAL (s : State) : (advancePos s).TOTAL = s.TOTAL := by rw [advancePos]
@[simp] theorem advancePos_PROGEN (s : State) : (advancePos s).PROGEN = s.PROGEN := by rw [advancePos]
@[simp] theorem advancePos_DIAG (s : State) : (advancePos s).DIAG = s.DIAG := by rw [advancePos]
@[simp] theorem advancePos_BUSY (s : State) : (advancePos s).BUSY = s.BUSY := by rw [advancePos]
@[simp] theorem advancePos_DONE (s : State) : (advancePos s).DONE = s.DONE := by rw [advancePos]
@[simp] theorem advancePos_FALLBACK (s : State) : (advancePos s).FALLBACK = s.FALLBACK := by rw [advancePos]
@[simp] theorem advancePos_ERR (s : State) : (advancePos s).ERR = s.ERR := by rw [advancePos]
@[simp] theorem advancePos_EV (s : State) : (advancePos s).EV = s.EV := by rw [advancePos]
@[simp] theorem advancePos_CAP (s : State) : (advancePos s).CAP = s.CAP := by rw [advancePos]
@[simp] theorem advancePos_pending (s : State) : (advancePos s).pending = s.pending := by rw [advancePos]
@[simp] theorem advancePos_replies (s : State) : (advancePos s).replies = s.replies := by rw [advancePos]

@[simp] theorem startLoop_S (s : State) : (startLoop s).S = s.S := by rw [startLoop]
@[simp] theorem startLoop_T (s : State) : (startLoop s).T = s.T := by rw [startLoop]
@[simp] theorem startLoop_KEY (s : State) : (startLoop s).KEY = s.KEY := by rw [startLoop]
@[simp] theorem startLoop_KLEN (s : State) : (startLoop s).KLEN = s.KLEN := by rw [startLoop]
@[simp] theorem startLoop_W (s : State) : (startLoop s).W = s.W := by rw [startLoop]
@[simp] theorem startLoop_NR (s : State) : (startLoop s).NR = s.NR := by rw [startLoop]
@[simp] theorem startLoop_WVALID (s : State) : (startLoop s).WVALID = s.WVALID := by rw [startLoop]
@[simp] theorem startLoop_GFRES (s : State) : (startLoop s).GFRES = s.GFRES := by rw [startLoop]
@[simp] theorem startLoop_BUF (s : State) : (startLoop s).BUF = s.BUF := by rw [startLoop]
@[simp] theorem startLoop_LEN (s : State) : (startLoop s).LEN = s.LEN := by rw [startLoop]
@[simp] theorem startLoop_POS (s : State) : (startLoop s).POS = 0 := by rw [startLoop]
@[simp] theorem startLoop_TOTAL (s : State) : (startLoop s).TOTAL = s.LEN := by rw [startLoop]
@[simp] theorem startLoop_PROGEN (s : State) : (startLoop s).PROGEN = s.PROGEN := by rw [startLoop]
@[simp] theorem startLoop_DIAG (s : State) : (startLoop s).DIAG = s.DIAG := by rw [startLoop]
@[simp] theorem startLoop_BUSY (s : State) : (startLoop s).BUSY = s.BUSY := by rw [startLoop]
@[simp] theorem startLoop_DONE (s : State) : (startLoop s).DONE = s.DONE := by rw [startLoop]
@[simp] theorem startLoop_FALLBACK (s : State) : (startLoop s).FALLBACK = s.FALLBACK := by rw [startLoop]
@[simp] theorem startLoop_ERR (s : State) : (startLoop s).ERR = s.ERR := by rw [startLoop]
@[simp] theorem startLoop_EV (s : State) : (startLoop s).EV = s.EV := by rw [startLoop]
@[simp] theorem startLoop_CAP (s : State) : (startLoop s).CAP = s.CAP := by rw [startLoop]
@[simp] theorem startLoop_pending (s : State) : (startLoop s).pending = s.pending := by rw [startLoop]
@[simp] theorem startLoop_replies (s : State) : (startLoop s).replies = s.replies := by rw [startLoop]

@[simp] theorem emitResult_S (s : State) : (emitResult s).S = s.S := rfl
@[simp] theorem emitResult_T (s : State) : (emitResult s).T = s.T := rfl
@[simp] theorem emitResult_KEY (s : State) : (emitResult s).KEY = s.KEY := rfl
@[simp] theorem emitResult_KLEN (s : State) : (emitResult s).KLEN = s.KLEN := rfl
@[simp] theorem emitResult_W (s : State) : (emitResult s).W = s.W := rfl
@[simp] theorem emitResult_NR (s : State) : (emitResult s).NR = s.NR := rfl
@[simp] theorem emitResult_WVALID (s : State) : (emitResult s).WVALID = s.WVALID := rfl
@[simp] theorem emitResult_GFRES (s : State) : (emitResult s).GFRES = s.GFRES := rfl
@[simp] theorem emitResult_BUF (s : State) : (emitResult s).BUF = s.BUF := rfl
@[simp] theorem emitResult_LEN (s : State) : (emitResult s).LEN = s.LEN := rfl
@[simp] theorem emitResult_POS (s : State) : (emitResult s).POS = s.POS := rfl
@[simp] theorem emitResult_TOTAL (s : State) : (emitResult s).TOTAL = s.TOTAL := rfl
@[simp] theorem emitResult_PROGEN (s : State) : (emitResult s).PROGEN = s.PROGEN := rfl
@[simp] theorem emitResult_DIAG (s : State) : (emitResult s).DIAG = s.DIAG := rfl
@[simp] theorem emitResult_BUSY (s : State) : (emitResult s).BUSY = s.BUSY := rfl
@[simp] theorem emitResult_DONE (s : State) : (emitResult s).DONE = s.DONE := rfl
@[simp] theorem emitResult_FALLBACK (s : State) : (emitResult s).FALLBACK = s.FALLBACK := rfl
@[simp] theorem emitResult_ERR (s : State) : (emitResult s).ERR = s.ERR := rfl
@[simp] theorem emitResult_EV (s : State) : (emitResult s).EV = s.EV ++ [.result s.LEN s.FALLBACK] := rfl
@[simp] theorem emitResult_CAP (s : State) : (emitResult s).CAP = s.CAP := rfl
@[simp] theorem emitResult_pending (s : State) : (emitResult s).pending = s.pending := rfl
@[simp] theorem emitResult_replies (s : State) : (emitResult s).replies = s.replies := rfl

@[simp] theorem State.faulted_S (s : State) (code : Nibble) : (s.faulted code).S = s.S := by rw [State.faulted]
@[simp] theorem State.faulted_T (s : State) (code : Nibble) : (s.faulted code).T = s.T := by rw [State.faulted]
@[simp] theorem State.faulted_KEY (s : State) (code : Nibble) : (s.faulted code).KEY = s.KEY := by rw [State.faulted]
@[simp] theorem State.faulted_KLEN (s : State) (code : Nibble) : (s.faulted code).KLEN = s.KLEN := by rw [State.faulted]
@[simp] theorem State.faulted_W (s : State) (code : Nibble) : (s.faulted code).W = s.W := by rw [State.faulted]
@[simp] theorem State.faulted_NR (s : State) (code : Nibble) : (s.faulted code).NR = s.NR := by rw [State.faulted]
@[simp] theorem State.faulted_WVALID (s : State) (code : Nibble) : (s.faulted code).WVALID = s.WVALID := by rw [State.faulted]
@[simp] theorem State.faulted_GFRES (s : State) (code : Nibble) : (s.faulted code).GFRES = s.GFRES := by rw [State.faulted]
@[simp] theorem State.faulted_BUF (s : State) (code : Nibble) : (s.faulted code).BUF = s.BUF := by rw [State.faulted]
@[simp] theorem State.faulted_LEN (s : State) (code : Nibble) : (s.faulted code).LEN = s.LEN := by rw [State.faulted]
@[simp] theorem State.faulted_POS (s : State) (code : Nibble) : (s.faulted code).POS = s.POS := by rw [State.faulted]
@[simp] theorem State.faulted_TOTAL (s : State) (code : Nibble) : (s.faulted code).TOTAL = s.TOTAL := by rw [State.faulted]
@[simp] theorem State.faulted_PROGEN (s : State) (code : Nibble) : (s.faulted code).PROGEN = s.PROGEN := by rw [State.faulted]
@[simp] theorem State.faulted_DIAG (s : State) (code : Nibble) : (s.faulted code).DIAG = s.DIAG := by rw [State.faulted]
@[simp] theorem State.faulted_BUSY (s : State) (code : Nibble) : (s.faulted code).BUSY = false := by rw [State.faulted]
@[simp] theorem State.faulted_DONE (s : State) (code : Nibble) : (s.faulted code).DONE = true := by rw [State.faulted]
@[simp] theorem State.faulted_FALLBACK (s : State) (code : Nibble) : (s.faulted code).FALLBACK = false := by rw [State.faulted]
@[simp] theorem State.faulted_ERR (s : State) (code : Nibble) : (s.faulted code).ERR = code := by rw [State.faulted]
@[simp] theorem State.faulted_EV (s : State) (code : Nibble) : (s.faulted code).EV = s.EV := by rw [State.faulted]
@[simp] theorem State.faulted_CAP (s : State) (code : Nibble) : (s.faulted code).CAP = s.CAP := by rw [State.faulted]
@[simp] theorem State.faulted_pending (s : State) (code : Nibble) : (s.faulted code).pending = s.pending := by rw [State.faulted]
@[simp] theorem State.faulted_replies (s : State) (code : Nibble) : (s.faulted code).replies = s.replies := by rw [State.faulted]

@[simp] theorem State.streamFaulted_S (s : State) (code : Nibble) : (s.streamFaulted code).S = s.S := by rw [State.streamFaulted]
@[simp] theorem State.streamFaulted_T (s : State) (code : Nibble) : (s.streamFaulted code).T = s.T := by rw [State.streamFaulted]
@[simp] theorem State.streamFaulted_KEY (s : State) (code : Nibble) : (s.streamFaulted code).KEY = s.KEY := by rw [State.streamFaulted]
@[simp] theorem State.streamFaulted_KLEN (s : State) (code : Nibble) : (s.streamFaulted code).KLEN = s.KLEN := by rw [State.streamFaulted]
@[simp] theorem State.streamFaulted_W (s : State) (code : Nibble) : (s.streamFaulted code).W = s.W := by rw [State.streamFaulted]
@[simp] theorem State.streamFaulted_NR (s : State) (code : Nibble) : (s.streamFaulted code).NR = s.NR := by rw [State.streamFaulted]
@[simp] theorem State.streamFaulted_WVALID (s : State) (code : Nibble) : (s.streamFaulted code).WVALID = s.WVALID := by rw [State.streamFaulted]
@[simp] theorem State.streamFaulted_GFRES (s : State) (code : Nibble) : (s.streamFaulted code).GFRES = s.GFRES := by rw [State.streamFaulted]
@[simp] theorem State.streamFaulted_BUF (s : State) (code : Nibble) : (s.streamFaulted code).BUF = s.BUF := by rw [State.streamFaulted]
@[simp] theorem State.streamFaulted_LEN (s : State) (code : Nibble) : (s.streamFaulted code).LEN = s.LEN := by rw [State.streamFaulted]
@[simp] theorem State.streamFaulted_POS (s : State) (code : Nibble) : (s.streamFaulted code).POS = s.POS := by rw [State.streamFaulted]
@[simp] theorem State.streamFaulted_TOTAL (s : State) (code : Nibble) : (s.streamFaulted code).TOTAL = s.TOTAL := by rw [State.streamFaulted]
@[simp] theorem State.streamFaulted_PROGEN (s : State) (code : Nibble) : (s.streamFaulted code).PROGEN = s.PROGEN := by rw [State.streamFaulted]
@[simp] theorem State.streamFaulted_DIAG (s : State) (code : Nibble) : (s.streamFaulted code).DIAG = s.DIAG := by rw [State.streamFaulted]
@[simp] theorem State.streamFaulted_BUSY (s : State) (code : Nibble) : (s.streamFaulted code).BUSY = false := by rw [State.streamFaulted]
@[simp] theorem State.streamFaulted_DONE (s : State) (code : Nibble) : (s.streamFaulted code).DONE = true := by rw [State.streamFaulted]
@[simp] theorem State.streamFaulted_FALLBACK (s : State) (code : Nibble) : (s.streamFaulted code).FALLBACK = false := by rw [State.streamFaulted]
@[simp] theorem State.streamFaulted_ERR (s : State) (code : Nibble) : (s.streamFaulted code).ERR = code := by rw [State.streamFaulted]
@[simp] theorem State.streamFaulted_EV (s : State) (code : Nibble) : (s.streamFaulted code).EV = s.EV ++ [.fault code] := by rw [State.streamFaulted]
@[simp] theorem State.streamFaulted_CAP (s : State) (code : Nibble) : (s.streamFaulted code).CAP = s.CAP := by rw [State.streamFaulted]
@[simp] theorem State.streamFaulted_pending (s : State) (code : Nibble) : (s.streamFaulted code).pending = s.pending := by rw [State.streamFaulted]
@[simp] theorem State.streamFaulted_replies (s : State) (code : Nibble) : (s.streamFaulted code).replies = s.replies := by rw [State.streamFaulted]

@[simp] theorem softReset_S (s : State) : (softReset s).S = Vector.replicate 16 0 := rfl
@[simp] theorem softReset_T (s : State) : (softReset s).T = Vector.replicate 16 0 := rfl
@[simp] theorem softReset_KEY (s : State) : (softReset s).KEY = Vector.replicate 32 0 := rfl
@[simp] theorem softReset_KLEN (s : State) : (softReset s).KLEN = 0 := rfl
@[simp] theorem softReset_W (s : State) : (softReset s).W = Vector.replicate 60 (Vector.replicate 4 0) := rfl
@[simp] theorem softReset_NR (s : State) : (softReset s).NR = 0 := rfl
@[simp] theorem softReset_WVALID (s : State) : (softReset s).WVALID = false := rfl
@[simp] theorem softReset_GFRES (s : State) : (softReset s).GFRES = 0 := rfl
@[simp] theorem softReset_BUF (s : State) : (softReset s).BUF = s.BUF := rfl
@[simp] theorem softReset_LEN (s : State) : (softReset s).LEN = 0 := rfl
@[simp] theorem softReset_POS (s : State) : (softReset s).POS = 0 := rfl
@[simp] theorem softReset_TOTAL (s : State) : (softReset s).TOTAL = 0 := rfl
@[simp] theorem softReset_PROGEN (s : State) : (softReset s).PROGEN = false := rfl
@[simp] theorem softReset_DIAG (s : State) : (softReset s).DIAG = false := rfl
@[simp] theorem softReset_BUSY (s : State) : (softReset s).BUSY = false := rfl
@[simp] theorem softReset_DONE (s : State) : (softReset s).DONE = false := rfl
@[simp] theorem softReset_FALLBACK (s : State) : (softReset s).FALLBACK = false := rfl
@[simp] theorem softReset_ERR (s : State) : (softReset s).ERR = 0 := rfl
@[simp] theorem softReset_EV (s : State) : (softReset s).EV = [] := rfl
@[simp] theorem softReset_CAP (s : State) : (softReset s).CAP = s.CAP := rfl
@[simp] theorem softReset_pending (s : State) : (softReset s).pending = s.pending := rfl
@[simp] theorem softReset_replies (s : State) : (softReset s).replies = s.replies := rfl

@[simp] theorem issueWord_S (w : Word) (s : State) : (issueWord w s).S = s.S := rfl
@[simp] theorem issueWord_T (w : Word) (s : State) : (issueWord w s).T = s.T := rfl
@[simp] theorem issueWord_KEY (w : Word) (s : State) : (issueWord w s).KEY = s.KEY := rfl
@[simp] theorem issueWord_KLEN (w : Word) (s : State) : (issueWord w s).KLEN = s.KLEN := rfl
@[simp] theorem issueWord_W (w : Word) (s : State) : (issueWord w s).W = s.W := rfl
@[simp] theorem issueWord_NR (w : Word) (s : State) : (issueWord w s).NR = s.NR := rfl
@[simp] theorem issueWord_WVALID (w : Word) (s : State) : (issueWord w s).WVALID = s.WVALID := rfl
@[simp] theorem issueWord_GFRES (w : Word) (s : State) : (issueWord w s).GFRES = s.GFRES := rfl
@[simp] theorem issueWord_BUF (w : Word) (s : State) : (issueWord w s).BUF = s.BUF := rfl
@[simp] theorem issueWord_LEN (w : Word) (s : State) : (issueWord w s).LEN = s.LEN := rfl
@[simp] theorem issueWord_POS (w : Word) (s : State) : (issueWord w s).POS = s.POS := rfl
@[simp] theorem issueWord_TOTAL (w : Word) (s : State) : (issueWord w s).TOTAL = s.TOTAL := rfl
@[simp] theorem issueWord_PROGEN (w : Word) (s : State) : (issueWord w s).PROGEN = s.PROGEN := rfl
@[simp] theorem issueWord_DIAG (w : Word) (s : State) : (issueWord w s).DIAG = s.DIAG := rfl
@[simp] theorem issueWord_BUSY (w : Word) (s : State) : (issueWord w s).BUSY = s.BUSY := rfl
@[simp] theorem issueWord_DONE (w : Word) (s : State) : (issueWord w s).DONE = s.DONE := rfl
@[simp] theorem issueWord_FALLBACK (w : Word) (s : State) : (issueWord w s).FALLBACK = s.FALLBACK := rfl
@[simp] theorem issueWord_ERR (w : Word) (s : State) : (issueWord w s).ERR = s.ERR := rfl
@[simp] theorem issueWord_EV (w : Word) (s : State) : (issueWord w s).EV = s.EV := rfl
@[simp] theorem issueWord_CAP (w : Word) (s : State) : (issueWord w s).CAP = s.CAP := rfl
@[simp] theorem issueWord_pending (w : Word) (s : State) : (issueWord w s).pending = .write32 cmdAddress w :: s.pending := rfl
@[simp] theorem issueWord_replies (w : Word) (s : State) : (issueWord w s).replies = s.replies := rfl

end Sys2Proof.Machine
end

