-- ==== Sys2Proof/Laws/Frames.lean ====
section
/-! SUPPORT. What the block loop and the shared parts of the stream-class commands leave unchanged, one lemma for each
field. -/

namespace Sys2Proof.Machine

@[simp] theorem strideProgress_S (s : State) : (strideProgress s).S = s.S := by unfold strideProgress; split <;> rfl
@[simp] theorem strideProgress_T (s : State) : (strideProgress s).T = s.T := by unfold strideProgress; split <;> rfl
@[simp] theorem strideProgress_KEY (s : State) : (strideProgress s).KEY = s.KEY := by unfold strideProgress; split <;> rfl
@[simp] theorem strideProgress_KLEN (s : State) : (strideProgress s).KLEN = s.KLEN := by unfold strideProgress; split <;> rfl
@[simp] theorem strideProgress_W (s : State) : (strideProgress s).W = s.W := by unfold strideProgress; split <;> rfl
@[simp] theorem strideProgress_NR (s : State) : (strideProgress s).NR = s.NR := by unfold strideProgress; split <;> rfl
@[simp] theorem strideProgress_WVALID (s : State) : (strideProgress s).WVALID = s.WVALID := by unfold strideProgress; split <;> rfl
@[simp] theorem strideProgress_GFRES (s : State) : (strideProgress s).GFRES = s.GFRES := by unfold strideProgress; split <;> rfl
@[simp] theorem strideProgress_BUF (s : State) : (strideProgress s).BUF = s.BUF := by unfold strideProgress; split <;> rfl
@[simp] theorem strideProgress_LEN (s : State) : (strideProgress s).LEN = s.LEN := by unfold strideProgress; split <;> rfl
@[simp] theorem strideProgress_POS (s : State) : (strideProgress s).POS = s.POS := by unfold strideProgress; split <;> rfl
@[simp] theorem strideProgress_TOTAL (s : State) : (strideProgress s).TOTAL = s.TOTAL := by unfold strideProgress; split <;> rfl
@[simp] theorem strideProgress_PROGEN (s : State) : (strideProgress s).PROGEN = s.PROGEN := by unfold strideProgress; split <;> rfl
@[simp] theorem strideProgress_DIAG (s : State) : (strideProgress s).DIAG = s.DIAG := by unfold strideProgress; split <;> rfl
@[simp] theorem strideProgress_BUSY (s : State) : (strideProgress s).BUSY = s.BUSY := by unfold strideProgress; split <;> rfl
@[simp] theorem strideProgress_DONE (s : State) : (strideProgress s).DONE = s.DONE := by unfold strideProgress; split <;> rfl
@[simp] theorem strideProgress_FALLBACK (s : State) : (strideProgress s).FALLBACK = s.FALLBACK := by unfold strideProgress; split <;> rfl
@[simp] theorem strideProgress_ERR (s : State) : (strideProgress s).ERR = s.ERR := by unfold strideProgress; split <;> rfl
@[simp] theorem strideProgress_CAP (s : State) : (strideProgress s).CAP = s.CAP := by unfold strideProgress; split <;> rfl
@[simp] theorem strideProgress_pending (s : State) : (strideProgress s).pending = s.pending := by unfold strideProgress; split <;> rfl
@[simp] theorem strideProgress_replies (s : State) : (strideProgress s).replies = s.replies := by unfold strideProgress; split <;> rfl

@[simp] theorem finalProgress_S (s : State) : (finalProgress s).S = s.S := by unfold finalProgress; split <;> rfl
@[simp] theorem finalProgress_T (s : State) : (finalProgress s).T = s.T := by unfold finalProgress; split <;> rfl
@[simp] theorem finalProgress_KEY (s : State) : (finalProgress s).KEY = s.KEY := by unfold finalProgress; split <;> rfl
@[simp] theorem finalProgress_KLEN (s : State) : (finalProgress s).KLEN = s.KLEN := by unfold finalProgress; split <;> rfl
@[simp] theorem finalProgress_W (s : State) : (finalProgress s).W = s.W := by unfold finalProgress; split <;> rfl
@[simp] theorem finalProgress_NR (s : State) : (finalProgress s).NR = s.NR := by unfold finalProgress; split <;> rfl
@[simp] theorem finalProgress_WVALID (s : State) : (finalProgress s).WVALID = s.WVALID := by unfold finalProgress; split <;> rfl
@[simp] theorem finalProgress_GFRES (s : State) : (finalProgress s).GFRES = s.GFRES := by unfold finalProgress; split <;> rfl
@[simp] theorem finalProgress_BUF (s : State) : (finalProgress s).BUF = s.BUF := by unfold finalProgress; split <;> rfl
@[simp] theorem finalProgress_LEN (s : State) : (finalProgress s).LEN = s.LEN := by unfold finalProgress; split <;> rfl
@[simp] theorem finalProgress_POS (s : State) : (finalProgress s).POS = s.POS := by unfold finalProgress; split <;> rfl
@[simp] theorem finalProgress_TOTAL (s : State) : (finalProgress s).TOTAL = s.TOTAL := by unfold finalProgress; split <;> rfl
@[simp] theorem finalProgress_PROGEN (s : State) : (finalProgress s).PROGEN = s.PROGEN := by unfold finalProgress; split <;> rfl
@[simp] theorem finalProgress_DIAG (s : State) : (finalProgress s).DIAG = s.DIAG := by unfold finalProgress; split <;> rfl
@[simp] theorem finalProgress_BUSY (s : State) : (finalProgress s).BUSY = s.BUSY := by unfold finalProgress; split <;> rfl
@[simp] theorem finalProgress_DONE (s : State) : (finalProgress s).DONE = s.DONE := by unfold finalProgress; split <;> rfl
@[simp] theorem finalProgress_FALLBACK (s : State) : (finalProgress s).FALLBACK = s.FALLBACK := by unfold finalProgress; split <;> rfl
@[simp] theorem finalProgress_ERR (s : State) : (finalProgress s).ERR = s.ERR := by unfold finalProgress; split <;> rfl
@[simp] theorem finalProgress_CAP (s : State) : (finalProgress s).CAP = s.CAP := by unfold finalProgress; split <;> rfl
@[simp] theorem finalProgress_pending (s : State) : (finalProgress s).pending = s.pending := by unfold finalProgress; split <;> rfl
@[simp] theorem finalProgress_replies (s : State) : (finalProgress s).replies = s.replies := by unfold finalProgress; split <;> rfl

@[simp] theorem processBlock_KEY (d : Direction) (s : State) : (processBlock d s).KEY = s.KEY := by simp [processBlock]
@[simp] theorem processBlock_KLEN (d : Direction) (s : State) : (processBlock d s).KLEN = s.KLEN := by simp [processBlock]
@[simp] theorem processBlock_W (d : Direction) (s : State) : (processBlock d s).W = s.W := by simp [processBlock]
@[simp] theorem processBlock_NR (d : Direction) (s : State) : (processBlock d s).NR = s.NR := by simp [processBlock]
@[simp] theorem processBlock_WVALID (d : Direction) (s : State) : (processBlock d s).WVALID = s.WVALID := by simp [processBlock]
@[simp] theorem processBlock_GFRES (d : Direction) (s : State) : (processBlock d s).GFRES = s.GFRES := by simp [processBlock]
@[simp] theorem processBlock_LEN (d : Direction) (s : State) : (processBlock d s).LEN = s.LEN := by simp [processBlock]
@[simp] theorem processBlock_TOTAL (d : Direction) (s : State) : (processBlock d s).TOTAL = s.TOTAL := by simp [processBlock]
@[simp] theorem processBlock_PROGEN (d : Direction) (s : State) : (processBlock d s).PROGEN = s.PROGEN := by simp [processBlock]
@[simp] theorem processBlock_DIAG (d : Direction) (s : State) : (processBlock d s).DIAG = s.DIAG := by simp [processBlock]
@[simp] theorem processBlock_BUSY (d : Direction) (s : State) : (processBlock d s).BUSY = s.BUSY := by simp [processBlock]
@[simp] theorem processBlock_DONE (d : Direction) (s : State) : (processBlock d s).DONE = s.DONE := by simp [processBlock]
@[simp] theorem processBlock_FALLBACK (d : Direction) (s : State) : (processBlock d s).FALLBACK = s.FALLBACK := by simp [processBlock]
@[simp] theorem processBlock_ERR (d : Direction) (s : State) : (processBlock d s).ERR = s.ERR := by simp [processBlock]
@[simp] theorem processBlock_CAP (d : Direction) (s : State) : (processBlock d s).CAP = s.CAP := by simp [processBlock]
@[simp] theorem processBlock_pending (d : Direction) (s : State) : (processBlock d s).pending = s.pending := by simp [processBlock]
@[simp] theorem processBlock_replies (d : Direction) (s : State) : (processBlock d s).replies = s.replies := by simp [processBlock]

@[simp] theorem processBlocks_KEY (d : Direction) (n : Nat) (s : State) : (processBlocks d n s).KEY = s.KEY := by
  induction n generalizing s with
  | zero => rfl
  | succ n ih => simp [processBlocks, ih]
@[simp] theorem processBlocks_KLEN (d : Direction) (n : Nat) (s : State) : (processBlocks d n s).KLEN = s.KLEN := by
  induction n generalizing s with
  | zero => rfl
  | succ n ih => simp [processBlocks, ih]
@[simp] theorem processBlocks_W (d : Direction) (n : Nat) (s : State) : (processBlocks d n s).W = s.W := by
  induction n generalizing s with
  | zero => rfl
  | succ n ih => simp [processBlocks, ih]
@[simp] theorem processBlocks_NR (d : Direction) (n : Nat) (s : State) : (processBlocks d n s).NR = s.NR := by
  induction n generalizing s with
  | zero => rfl
  | succ n ih => simp [processBlocks, ih]
@[simp] theorem processBlocks_WVALID (d : Direction) (n : Nat) (s : State) : (processBlocks d n s).WVALID = s.WVALID := by
  induction n generalizing s with
  | zero => rfl
  | succ n ih => simp [processBlocks, ih]
@[simp] theorem processBlocks_GFRES (d : Direction) (n : Nat) (s : State) : (processBlocks d n s).GFRES = s.GFRES := by
  induction n generalizing s with
  | zero => rfl
  | succ n ih => simp [processBlocks, ih]
@[simp] theorem processBlocks_LEN (d : Direction) (n : Nat) (s : State) : (processBlocks d n s).LEN = s.LEN := by
  induction n generalizing s with
  | zero => rfl
  | succ n ih => simp [processBlocks, ih]
@[simp] theorem processBlocks_TOTAL (d : Direction) (n : Nat) (s : State) : (processBlocks d n s).TOTAL = s.TOTAL := by
  induction n generalizing s with
  | zero => rfl
  | succ n ih => simp [processBlocks, ih]
@[simp] theorem processBlocks_PROGEN (d : Direction) (n : Nat) (s : State) : (processBlocks d n s).PROGEN = s.PROGEN := by
  induction n generalizing s with
  | zero => rfl
  | succ n ih => simp [processBlocks, ih]
@[simp] theorem processBlocks_DIAG (d : Direction) (n : Nat) (s : State) : (processBlocks d n s).DIAG = s.DIAG := by
  induction n generalizing s with
  | zero => rfl
  | succ n ih => simp [processBlocks, ih]
@[simp] theorem processBlocks_BUSY (d : Direction) (n : Nat) (s : State) : (processBlocks d n s).BUSY = s.BUSY := by
  induction n generalizing s with
  | zero => rfl
  | succ n ih => simp [processBlocks, ih]
@[simp] theorem processBlocks_DONE (d : Direction) (n : Nat) (s : State) : (processBlocks d n s).DONE = s.DONE := by
  induction n generalizing s with
  | zero => rfl
  | succ n ih => simp [processBlocks, ih]
@[simp] theorem processBlocks_FALLBACK (d : Direction) (n : Nat) (s : State) : (processBlocks d n s).FALLBACK = s.FALLBACK := by
  induction n generalizing s with
  | zero => rfl
  | succ n ih => simp [processBlocks, ih]
@[simp] theorem processBlocks_ERR (d : Direction) (n : Nat) (s : State) : (processBlocks d n s).ERR = s.ERR := by
  induction n generalizing s with
  | zero => rfl
  | succ n ih => simp [processBlocks, ih]
@[simp] theorem processBlocks_CAP (d : Direction) (n : Nat) (s : State) : (processBlocks d n s).CAP = s.CAP := by
  induction n generalizing s with
  | zero => rfl
  | succ n ih => simp [processBlocks, ih]
@[simp] theorem processBlocks_pending (d : Direction) (n : Nat) (s : State) : (processBlocks d n s).pending = s.pending := by
  induction n generalizing s with
  | zero => rfl
  | succ n ih => simp [processBlocks, ih]
@[simp] theorem processBlocks_replies (d : Direction) (n : Nat) (s : State) : (processBlocks d n s).replies = s.replies := by
  induction n generalizing s with
  | zero => rfl
  | succ n ih => simp [processBlocks, ih]

@[simp] theorem blockLoop_KEY (d : Direction) (s : State) : (blockLoop d s).KEY = s.KEY := by simp [blockLoop]
@[simp] theorem blockLoop_KLEN (d : Direction) (s : State) : (blockLoop d s).KLEN = s.KLEN := by simp [blockLoop]
@[simp] theorem blockLoop_W (d : Direction) (s : State) : (blockLoop d s).W = s.W := by simp [blockLoop]
@[simp] theorem blockLoop_NR (d : Direction) (s : State) : (blockLoop d s).NR = s.NR := by simp [blockLoop]
@[simp] theorem blockLoop_WVALID (d : Direction) (s : State) : (blockLoop d s).WVALID = s.WVALID := by simp [blockLoop]
@[simp] theorem blockLoop_GFRES (d : Direction) (s : State) : (blockLoop d s).GFRES = s.GFRES := by simp [blockLoop]
@[simp] theorem blockLoop_LEN (d : Direction) (s : State) : (blockLoop d s).LEN = s.LEN := by simp [blockLoop]
@[simp] theorem blockLoop_TOTAL (d : Direction) (s : State) : (blockLoop d s).TOTAL = s.LEN := by simp [blockLoop]
@[simp] theorem blockLoop_PROGEN (d : Direction) (s : State) : (blockLoop d s).PROGEN = s.PROGEN := by simp [blockLoop]
@[simp] theorem blockLoop_DIAG (d : Direction) (s : State) : (blockLoop d s).DIAG = s.DIAG := by simp [blockLoop]
@[simp] theorem blockLoop_BUSY (d : Direction) (s : State) : (blockLoop d s).BUSY = s.BUSY := by simp [blockLoop]
@[simp] theorem blockLoop_DONE (d : Direction) (s : State) : (blockLoop d s).DONE = s.DONE := by simp [blockLoop]
@[simp] theorem blockLoop_FALLBACK (d : Direction) (s : State) : (blockLoop d s).FALLBACK = s.FALLBACK := by simp [blockLoop]
@[simp] theorem blockLoop_ERR (d : Direction) (s : State) : (blockLoop d s).ERR = s.ERR := by simp [blockLoop]
@[simp] theorem blockLoop_CAP (d : Direction) (s : State) : (blockLoop d s).CAP = s.CAP := by simp [blockLoop]
@[simp] theorem blockLoop_pending (d : Direction) (s : State) : (blockLoop d s).pending = s.pending := by simp [blockLoop]
@[simp] theorem blockLoop_replies (d : Direction) (s : State) : (blockLoop d s).replies = s.replies := by simp [blockLoop]

@[simp] theorem streamBlocks_KEY (d : Direction) (s : State) : (streamBlocks d s).KEY = s.KEY := by simp [streamBlocks]
@[simp] theorem streamBlocks_KLEN (d : Direction) (s : State) : (streamBlocks d s).KLEN = s.KLEN := by simp [streamBlocks]
@[simp] theorem streamBlocks_W (d : Direction) (s : State) : (streamBlocks d s).W = loadWords s.W (expandKey s.KEY s.KLEN) := by simp [streamBlocks]
@[simp] theorem streamBlocks_NR (d : Direction) (s : State) : (streamBlocks d s).NR = 0 := by simp [streamBlocks]
@[simp] theorem streamBlocks_WVALID (d : Direction) (s : State) : (streamBlocks d s).WVALID = false := by simp [streamBlocks]
@[simp] theorem streamBlocks_GFRES (d : Direction) (s : State) : (streamBlocks d s).GFRES = s.GFRES := by simp [streamBlocks]
@[simp] theorem streamBlocks_LEN (d : Direction) (s : State) : (streamBlocks d s).LEN = s.LEN := by simp [streamBlocks]
@[simp] theorem streamBlocks_TOTAL (d : Direction) (s : State) : (streamBlocks d s).TOTAL = s.LEN := by simp [streamBlocks]
@[simp] theorem streamBlocks_PROGEN (d : Direction) (s : State) : (streamBlocks d s).PROGEN = s.PROGEN := by simp [streamBlocks]
@[simp] theorem streamBlocks_DIAG (d : Direction) (s : State) : (streamBlocks d s).DIAG = s.DIAG := by simp [streamBlocks]
@[simp] theorem streamBlocks_BUSY (d : Direction) (s : State) : (streamBlocks d s).BUSY = s.BUSY := by simp [streamBlocks]
@[simp] theorem streamBlocks_DONE (d : Direction) (s : State) : (streamBlocks d s).DONE = s.DONE := by simp [streamBlocks]
@[simp] theorem streamBlocks_FALLBACK (d : Direction) (s : State) : (streamBlocks d s).FALLBACK = s.FALLBACK := by simp [streamBlocks]
@[simp] theorem streamBlocks_ERR (d : Direction) (s : State) : (streamBlocks d s).ERR = s.ERR := by simp [streamBlocks]
@[simp] theorem streamBlocks_CAP (d : Direction) (s : State) : (streamBlocks d s).CAP = s.CAP := by simp [streamBlocks]
@[simp] theorem streamBlocks_pending (d : Direction) (s : State) : (streamBlocks d s).pending = s.pending := by simp [streamBlocks]
@[simp] theorem streamBlocks_replies (d : Direction) (s : State) : (streamBlocks d s).replies = s.replies := by simp [streamBlocks]

@[simp] theorem unpadOrFallback_S (s : State) : (unpadOrFallback s).S = s.S := by
  unfold unpadOrFallback; split <;> simp
@[simp] theorem unpadOrFallback_T (s : State) : (unpadOrFallback s).T = s.T := by
  unfold unpadOrFallback; split <;> simp
@[simp] theorem unpadOrFallback_KEY (s : State) : (unpadOrFallback s).KEY = s.KEY := by
  unfold unpadOrFallback; split <;> simp
@[simp] theorem unpadOrFallback_KLEN (s : State) : (unpadOrFallback s).KLEN = s.KLEN := by
  unfold unpadOrFallback; split <;> simp
@[simp] theorem unpadOrFallback_W (s : State) : (unpadOrFallback s).W = s.W := by
  unfold unpadOrFallback; split <;> simp
@[simp] theorem unpadOrFallback_NR (s : State) : (unpadOrFallback s).NR = s.NR := by
  unfold unpadOrFallback; split <;> simp
@[simp] theorem unpadOrFallback_WVALID (s : State) : (unpadOrFallback s).WVALID = s.WVALID := by
  unfold unpadOrFallback; split <;> simp
@[simp] theorem unpadOrFallback_GFRES (s : State) : (unpadOrFallback s).GFRES = s.GFRES := by
  unfold unpadOrFallback; split <;> simp
@[simp] theorem unpadOrFallback_BUF (s : State) : (unpadOrFallback s).BUF = s.BUF := by
  unfold unpadOrFallback; split <;> simp
@[simp] theorem unpadOrFallback_POS (s : State) : (unpadOrFallback s).POS = s.POS := by
  unfold unpadOrFallback; split <;> simp
@[simp] theorem unpadOrFallback_TOTAL (s : State) : (unpadOrFallback s).TOTAL = s.TOTAL := by
  unfold unpadOrFallback; split <;> simp
@[simp] theorem unpadOrFallback_PROGEN (s : State) : (unpadOrFallback s).PROGEN = s.PROGEN := by
  unfold unpadOrFallback; split <;> simp
@[simp] theorem unpadOrFallback_DIAG (s : State) : (unpadOrFallback s).DIAG = s.DIAG := by
  unfold unpadOrFallback; split <;> simp
@[simp] theorem unpadOrFallback_BUSY (s : State) : (unpadOrFallback s).BUSY = s.BUSY := by
  unfold unpadOrFallback; split <;> simp
@[simp] theorem unpadOrFallback_DONE (s : State) : (unpadOrFallback s).DONE = s.DONE := by
  unfold unpadOrFallback; split <;> simp
@[simp] theorem unpadOrFallback_ERR (s : State) : (unpadOrFallback s).ERR = s.ERR := by
  unfold unpadOrFallback; split <;> simp
@[simp] theorem unpadOrFallback_EV (s : State) : (unpadOrFallback s).EV = s.EV := by
  unfold unpadOrFallback; split <;> simp
@[simp] theorem unpadOrFallback_CAP (s : State) : (unpadOrFallback s).CAP = s.CAP := by
  unfold unpadOrFallback; split <;> simp
@[simp] theorem unpadOrFallback_pending (s : State) : (unpadOrFallback s).pending = s.pending := by
  unfold unpadOrFallback; split <;> simp
@[simp] theorem unpadOrFallback_replies (s : State) : (unpadOrFallback s).replies = s.replies := by
  unfold unpadOrFallback; split <;> simp

end Sys2Proof.Machine
end

