-- ==== Sys2Proof/Laws/Ops.lean ====
section
/-! SUPPORT. What each shared operation answers: a raise, a completion, a guard, a reply; and for each meaning that can
raise, the cases of its next state. -/

namespace Sys2Proof.Machine

/-- A raise on an accepted primitive command. -/
theorem raiseFault_primitive (e : ErrorCode) (s : State) : raiseFault .primitive e (accept s) = s.faulted e.code := rfl

/-- A raise on an accepted stream-class command. -/
theorem raiseFault_stream (e : ErrorCode) (s : State) : raiseFault .stream e (accept s) = s.streamFaulted e.code := rfl

theorem raised_primitive (e : ErrorCode) (s : State) : raised .primitive e (accept s) = .next (s.faulted e.code) := rfl

theorem raised_stream (e : ErrorCode) (s : State) : raised .stream e (accept s) = .next (s.streamFaulted e.code) := rfl

@[simp] theorem completed_next {s t : State} : completed s = .next t ↔ t = complete s := by
  simp only [completed, Host.Outcome.next.injEq]; exact eq_comm

/-- A guard passes exactly where its index is inside the store. -/
@[simp] theorem guardBuf_next {top : Nat} {s t : State} {go : Outcome} :
    guardBuf top s go = .next t ↔ top ≤ s.CAP.toNat ∧ go = .next t := by
  unfold guardBuf; split <;> simp [*]

theorem guardBuf_pass {top : Nat} {s : State} (go : Outcome) (h : top ≤ s.CAP.toNat) : guardBuf top s go = go :=
  if_pos h

@[simp] theorem guardW_next {r : Nat} {t : State} {go : Outcome} :
    guardW r go = .next t ↔ r ≤ 14 ∧ go = .next t := by
  unfold guardW; split <;> simp <;> omega

theorem guardW_pass {r : Nat} (go : Outcome) (h : r ≤ 14) : guardW r go = go := if_pos (by omega)

/-- An access that answers a next state only appended its reply to what went before. -/
@[simp] theorem answer_next {r : Reply} {o : Outcome} {t : State} :
    answer r o = .next t ↔ ∃ u, o = .next u ∧ t = { u with replies := u.replies ++ [r] } := by
  cases o <;> simp [answer, eq_comm]

@[simp] theorem answer_of_next (r : Reply) (s : State) :
    answer r (.next s) = .next { s with replies := s.replies ++ [r] } := rfl

theorem execAddroundkey_cases {r : Nat} {s t : State} (h : execAddroundkey r s = .next t) :
    (s.WVALID = false ∧ t = s.faulted 5) ∨ (s.WVALID = true ∧ s.NR.toNat < r ∧ t = s.faulted 6) ∨
      (s.WVALID = true ∧ r ≤ s.NR.toNat ∧ r ≤ 14 ∧ t = complete (setS (addRoundKey s.S s.W r) (accept s))) := by
  unfold execAddroundkey at h
  by_cases hw : s.WVALID = false
  · rw [if_pos hw, raised_primitive] at h
    exact .inl ⟨hw, (Host.Outcome.next.inj h).symm⟩
  · rw [if_neg hw] at h
    have hw' : s.WVALID = true := by simpa using hw
    by_cases hr : s.NR.toNat < r
    · rw [if_pos hr, raised_primitive] at h
      exact .inr (.inl ⟨hw', hr, (Host.Outcome.next.inj h).symm⟩)
    · rw [if_neg hr, guardW_next, completed_next] at h
      exact .inr (.inr ⟨hw', by omega, h.1, h.2⟩)

theorem execExpandkey_cases {s t : State} (h : execExpandkey s = .next t) :
    (keyLenValid s.KLEN = false ∧ t = s.faulted 1) ∨
      (keyLenValid s.KLEN = true ∧ t = complete (loadExpandedKey (accept s))) := by
  unfold execExpandkey at h
  split at h
  · next hk => exact .inr ⟨hk, completed_next.mp h⟩
  · next hk => exact .inl ⟨by simpa using hk, (Host.Outcome.next.inj h).symm⟩

theorem execEncblk_cases {s t : State} (h : execEncblk s = .next t) :
    (s.WVALID = false ∧ t = s.faulted 5) ∨
      (s.WVALID = true ∧ s.NR.toNat ≤ 14 ∧ t = complete (cryptS .encrypt (accept s))) := by
  unfold execEncblk at h
  split at h
  · next hw => exact .inl ⟨hw, (Host.Outcome.next.inj h).symm⟩
  · next hw =>
    rw [guardW_next, completed_next] at h
    exact .inr ⟨by simpa using hw, h.1, h.2⟩

theorem execDecblk_cases {s t : State} (h : execDecblk s = .next t) :
    (s.WVALID = false ∧ t = s.faulted 5) ∨
      (s.WVALID = true ∧ s.NR.toNat ≤ 14 ∧ t = complete (cryptS .decrypt (accept s))) := by
  unfold execDecblk at h
  split at h
  · next hw => exact .inl ⟨hw, (Host.Outcome.next.inj h).symm⟩
  · next hw =>
    rw [guardW_next, completed_next] at h
    exact .inr ⟨by simpa using hw, h.1, h.2⟩

theorem execPad_cases {s t : State} (h : execPad s = .next t) :
    (padFits s = false ∧ t = s.faulted 7) ∨ (padFits s = true ∧ t = complete (padBuffer (accept s))) := by
  unfold execPad at h
  split at h
  · next hk => exact .inr ⟨hk, completed_next.mp h⟩
  · next hk => exact .inl ⟨by simpa using hk, (Host.Outcome.next.inj h).symm⟩

theorem execUnpad_cases {s t : State} (h : execUnpad s = .next t) :
    s.LEN.toNat ≤ s.CAP.toNat ∧
      ((∃ e, unpadCheck s.BUF s.LEN.toNat = some e ∧ t = s.faulted e.code) ∨
        (unpadCheck s.BUF s.LEN.toNat = none ∧ t = complete (unpadBuffer (accept s)))) := by
  unfold execUnpad at h
  rw [guardBuf_next] at h
  refine ⟨h.1, ?_⟩
  have h2 := h.2
  split at h2
  · next e he => exact .inl ⟨e, he, (Host.Outcome.next.inj h2).symm⟩
  · next he => exact .inr ⟨he, completed_next.mp h2⟩

theorem execLdblk_cases {s t : State} (h : execLdblk s = .next t) :
    (blockInRange s = false ∧ t = s.faulted 6) ∨
      (blockInRange s = true ∧ s.POS.toNat + 16 ≤ s.CAP.toNat ∧ t = complete (loadBlock (accept s))) := by
  unfold execLdblk at h
  split at h
  · next hk =>
    rw [guardBuf_next, completed_next] at h
    exact .inr ⟨hk, h.1, h.2⟩
  · next hk => exact .inl ⟨by simpa using hk, (Host.Outcome.next.inj h).symm⟩

theorem execStblk_cases {s t : State} (h : execStblk s = .next t) :
    (blockInRange s = false ∧ t = s.faulted 6) ∨
      (blockInRange s = true ∧ s.POS.toNat + 16 ≤ s.CAP.toNat ∧ t = complete (storeBlock (accept s))) := by
  unfold execStblk at h
  split at h
  · next hk =>
    rw [guardBuf_next, completed_next] at h
    exact .inr ⟨hk, h.1, h.2⟩
  · next hk => exact .inl ⟨by simpa using hk, (Host.Outcome.next.inj h).symm⟩

theorem execStreamenc_cases {s t : State} (h : execStreamenc s = .next t) :
    (keyLenValid s.KLEN = false ∧ t = s.streamFaulted 1) ∨
      (keyLenValid s.KLEN = true ∧ padFits s = false ∧ t = s.streamFaulted 7) ∨
      (keyLenValid s.KLEN = true ∧ padFits s = true ∧
        t = complete (emitResult (streamBlocks .encrypt (padBuffer (accept s))))) := by
  unfold execStreamenc at h
  split at h
  · next hk =>
    split at h
    · next hp => exact .inr (.inr ⟨hk, hp, completed_next.mp h⟩)
    · next hp => exact .inr (.inl ⟨hk, by simpa using hp, (Host.Outcome.next.inj h).symm⟩)
  · next hk => exact .inl ⟨by simpa using hk, (Host.Outcome.next.inj h).symm⟩

theorem execStreamdec_cases {s t : State} (h : execStreamdec s = .next t) :
    (keyLenValid s.KLEN = false ∧ t = s.streamFaulted 1) ∨
      (keyLenValid s.KLEN = true ∧ wholeBlocks s = false ∧ t = s.streamFaulted 2) ∨
      (keyLenValid s.KLEN = true ∧ wholeBlocks s = true ∧ s.LEN.toNat ≤ s.CAP.toNat ∧
        t = complete (emitResult (unpadOrFallback (streamBlocks .decrypt (accept s))))) := by
  unfold execStreamdec at h
  split at h
  · next hk =>
    split at h
    · next hp =>
      rw [guardBuf_next, completed_next] at h
      exact .inr (.inr ⟨hk, hp, h.1, h.2⟩)
    · next hp => exact .inr (.inl ⟨hk, by simpa using hp, (Host.Outcome.next.inj h).symm⟩)
  · next hk => exact .inl ⟨by simpa using hk, (Host.Outcome.next.inj h).symm⟩

theorem execRawdec_cases {s t : State} (h : execRawdec s = .next t) :
    (keyLenValid s.KLEN = false ∧ t = s.streamFaulted 1) ∨
      (keyLenValid s.KLEN = true ∧ wholeBlocks s = false ∧ t = s.streamFaulted 2) ∨
      (keyLenValid s.KLEN = true ∧ wholeBlocks s = true ∧ s.LEN.toNat ≤ s.CAP.toNat ∧
        t = complete (emitResult (streamBlocks .decrypt (accept s)))) := by
  unfold execRawdec at h
  split at h
  · next hk =>
    split at h
    · next hp =>
      rw [guardBuf_next, completed_next] at h
      exact .inr (.inr ⟨hk, hp, h.1, h.2⟩)
    · next hp => exact .inr (.inl ⟨hk, by simpa using hp, (Host.Outcome.next.inj h).symm⟩)
  · next hk => exact .inl ⟨by simpa using hk, (Host.Outcome.next.inj h).symm⟩

end Sys2Proof.Machine
end

