-- ==== Sys2Proof/Laws/Effect.lean ====
section
/-! SUPPORT. Everything a command can do, said once: the cases of its next state, with their conditions. A proof about
`exec` takes these cases and never unfolds a meaning. -/

namespace Sys2Proof.Machine

/-- The next states of each command. -/
inductive Effect (s : State) : Instr → State → Prop where
  | gfmul (a b : Byte) : Effect s (.gfmul a b) (complete { accept s with GFRES := gmul a b })
  | subbytes : Effect s .subbytes (complete (setS (subBytes s.S) (accept s)))
  | invsubbytes : Effect s .invsubbytes (complete (setS (invSubBytes s.S) (accept s)))
  | shiftrows : Effect s .shiftrows (complete (setS (shiftRows s.S) (accept s)))
  | invshiftrows : Effect s .invshiftrows (complete (setS (invShiftRows s.S) (accept s)))
  | mixcolumns : Effect s .mixcolumns (complete (setSThroughT (mixColumns s.S) (accept s)))
  | invmixcolumns : Effect s .invmixcolumns (complete (setSThroughT (invMixColumns s.S) (accept s)))
  | addroundkey (r : Nat) (hw : s.WVALID = true) (hr : r ≤ s.NR.toNat) (hr' : r ≤ 14) :
      Effect s (.addroundkey r) (complete (setS (addRoundKey s.S s.W r) (accept s)))
  | addroundkeyNoKey (r : Nat) (hw : s.WVALID = false) : Effect s (.addroundkey r) (s.faulted 5)
  | addroundkeyRange (r : Nat) (hw : s.WVALID = true) (hr : s.NR.toNat < r) : Effect s (.addroundkey r) (s.faulted 6)
  | expandkey (hk : keyLenValid s.KLEN = true) : Effect s .expandkey (complete (loadExpandedKey (accept s)))
  | expandkeySize (hk : keyLenValid s.KLEN = false) : Effect s .expandkey (s.faulted 1)
  | encblk (hw : s.WVALID = true) (hn : s.NR.toNat ≤ 14) : Effect s .encblk (complete (cryptS .encrypt (accept s)))
  | encblkNoKey (hw : s.WVALID = false) : Effect s .encblk (s.faulted 5)
  | decblk (hw : s.WVALID = true) (hn : s.NR.toNat ≤ 14) : Effect s .decblk (complete (cryptS .decrypt (accept s)))
  | decblkNoKey (hw : s.WVALID = false) : Effect s .decblk (s.faulted 5)
  | pad (hp : padFits s = true) : Effect s .pad (complete (padBuffer (accept s)))
  | padCapacity (hp : padFits s = false) : Effect s .pad (s.faulted 7)
  | unpad (hl : s.LEN.toNat ≤ s.CAP.toNat) (hu : unpadCheck s.BUF s.LEN.toNat = none) :
      Effect s .unpad (complete (unpadBuffer (accept s)))
  | unpadInvalid (e : ErrorCode) (hl : s.LEN.toNat ≤ s.CAP.toNat) (hu : unpadCheck s.BUF s.LEN.toNat = some e) :
      Effect s .unpad (s.faulted e.code)
  | ldblk (hb : blockInRange s = true) (hc : s.POS.toNat + 16 ≤ s.CAP.toNat) :
      Effect s .ldblk (complete (loadBlock (accept s)))
  | ldblkRange (hb : blockInRange s = false) : Effect s .ldblk (s.faulted 6)
  | stblk (hb : blockInRange s = true) (hc : s.POS.toNat + 16 ≤ s.CAP.toNat) :
      Effect s .stblk (complete (storeBlock (accept s)))
  | stblkRange (hb : blockInRange s = false) : Effect s .stblk (s.faulted 6)
  | streamenc (hk : keyLenValid s.KLEN = true) (hp : padFits s = true) :
      Effect s .streamenc (complete (emitResult (streamBlocks .encrypt (padBuffer (accept s)))))
  | streamencSize (hk : keyLenValid s.KLEN = false) : Effect s .streamenc (s.streamFaulted 1)
  | streamencCapacity (hk : keyLenValid s.KLEN = true) (hp : padFits s = false) :
      Effect s .streamenc (s.streamFaulted 7)
  | streamdec (hk : keyLenValid s.KLEN = true) (hb : wholeBlocks s = true) (hl : s.LEN.toNat ≤ s.CAP.toNat) :
      Effect s .streamdec (complete (emitResult (unpadOrFallback (streamBlocks .decrypt (accept s)))))
  | streamdecSize (hk : keyLenValid s.KLEN = false) : Effect s .streamdec (s.streamFaulted 1)
  | streamdecLength (hk : keyLenValid s.KLEN = true) (hb : wholeBlocks s = false) :
      Effect s .streamdec (s.streamFaulted 2)
  | rawdec (hk : keyLenValid s.KLEN = true) (hb : wholeBlocks s = true) (hl : s.LEN.toNat ≤ s.CAP.toNat) :
      Effect s .rawdec (complete (emitResult (streamBlocks .decrypt (accept s))))
  | rawdecSize (hk : keyLenValid s.KLEN = false) : Effect s .rawdec (s.streamFaulted 1)
  | rawdecLength (hk : keyLenValid s.KLEN = true) (hb : wholeBlocks s = false) : Effect s .rawdec (s.streamFaulted 2)
  | clrerr : Effect s .clrerr (complete (returnFromFault (accept s)))
  | sreset : Effect s .sreset (softReset s)

/-- A command that answers a next state had one of its effects. -/
theorem exec_effect {i : Instr} {s t : State} (h : exec i s = .next t) : Effect s i t := by
  cases i with
  | gfmul a b => obtain rfl := completed_next.mp h; exact .gfmul a b
  | subbytes => obtain rfl := completed_next.mp h; exact .subbytes
  | invsubbytes => obtain rfl := completed_next.mp h; exact .invsubbytes
  | shiftrows => obtain rfl := completed_next.mp h; exact .shiftrows
  | invshiftrows => obtain rfl := completed_next.mp h; exact .invshiftrows
  | mixcolumns => obtain rfl := completed_next.mp h; exact .mixcolumns
  | invmixcolumns => obtain rfl := completed_next.mp h; exact .invmixcolumns
  | addroundkey r =>
    rcases execAddroundkey_cases h with ⟨hw, rfl⟩ | ⟨hw, hr, rfl⟩ | ⟨hw, hr, hr', rfl⟩
    · exact .addroundkeyNoKey r hw
    · exact .addroundkeyRange r hw hr
    · exact .addroundkey r hw hr hr'
  | expandkey =>
    rcases execExpandkey_cases h with ⟨hk, rfl⟩ | ⟨hk, rfl⟩
    · exact .expandkeySize hk
    · exact .expandkey hk
  | encblk =>
    rcases execEncblk_cases h with ⟨hw, rfl⟩ | ⟨hw, hn, rfl⟩
    · exact .encblkNoKey hw
    · exact .encblk hw hn
  | decblk =>
    rcases execDecblk_cases h with ⟨hw, rfl⟩ | ⟨hw, hn, rfl⟩
    · exact .decblkNoKey hw
    · exact .decblk hw hn
  | pad =>
    rcases execPad_cases h with ⟨hp, rfl⟩ | ⟨hp, rfl⟩
    · exact .padCapacity hp
    · exact .pad hp
  | unpad =>
    obtain ⟨hl, ⟨e, hu, rfl⟩ | ⟨hu, rfl⟩⟩ := execUnpad_cases h
    · exact .unpadInvalid e hl hu
    · exact .unpad hl hu
  | ldblk =>
    rcases execLdblk_cases h with ⟨hb, rfl⟩ | ⟨hb, hc, rfl⟩
    · exact .ldblkRange hb
    · exact .ldblk hb hc
  | stblk =>
    rcases execStblk_cases h with ⟨hb, rfl⟩ | ⟨hb, hc, rfl⟩
    · exact .stblkRange hb
    · exact .stblk hb hc
  | streamenc =>
    rcases execStreamenc_cases h with ⟨hk, rfl⟩ | ⟨hk, hp, rfl⟩ | ⟨hk, hp, rfl⟩
    · exact .streamencSize hk
    · exact .streamencCapacity hk hp
    · exact .streamenc hk hp
  | streamdec =>
    rcases execStreamdec_cases h with ⟨hk, rfl⟩ | ⟨hk, hb, rfl⟩ | ⟨hk, hb, hl, rfl⟩
    · exact .streamdecSize hk
    · exact .streamdecLength hk hb
    · exact .streamdec hk hb hl
  | rawdec =>
    rcases execRawdec_cases h with ⟨hk, rfl⟩ | ⟨hk, hb, rfl⟩ | ⟨hk, hb, hl, rfl⟩
    · exact .rawdecSize hk
    · exact .rawdecLength hk hb
    · exact .rawdec hk hb hl
  | clrerr => obtain rfl := completed_next.mp h; exact .clrerr
  | sreset => cases h; exact .sreset

end Sys2Proof.Machine
end

