-- ==== Sys2Proof/Laws/Encoding.lean ====
section
/-! SUPPORT. The fields of a packed command word, and what a decoded word's fields are. -/

namespace Sys2Proof

theorem getLsbD_packWord (op a b : Byte) (i : Nat) : (packWord op a b).getLsbD i =
    if i < 8 then op.getLsbD i else if i < 16 then a.getLsbD (i - 8) else b.getLsbD (i - 16) := by
  have h : (packWord op a b).getLsbD i = BitVec.getLsbD (w := 8 + 8 + 8 + 8) (0#8 ++ b ++ a ++ op) i := rfl
  rw [h]
  simp only [BitVec.getLsbD_append, Nat.sub_sub]
  by_cases h1 : i < 8
  · simp [h1]
  · by_cases h2 : i < 16
    · simp [h1, h2, show i - 8 < 8 by omega]
    · by_cases h3 : i < 24
      · simp [h1, h2, show ¬ i - 8 < 8 by omega, show i - 16 < 8 by omega]
      · simp [h1, h2, show ¬ i - 8 < 8 by omega, show ¬ i - 16 < 8 by omega]
        exact BitVec.getLsbD_of_ge _ _ (by omega)

@[simp] theorem fieldOp_packWord (op a b : Byte) : fieldOp (packWord op a b) = op := by
  apply BitVec.eq_of_getLsbD_eq; intro i hi
  simp only [fieldOp, BitVec.getLsbD_extractLsb', getLsbD_packWord]; simp [hi]

@[simp] theorem fieldA_packWord (op a b : Byte) : fieldA (packWord op a b) = a := by
  apply BitVec.eq_of_getLsbD_eq; intro i hi
  simp only [fieldA, BitVec.getLsbD_extractLsb', getLsbD_packWord]; simp [hi, show 8 + i < 16 by omega]

@[simp] theorem fieldB_packWord (op a b : Byte) : fieldB (packWord op a b) = b := by
  apply BitVec.eq_of_getLsbD_eq; intro i hi
  simp only [fieldB, BitVec.getLsbD_extractLsb', getLsbD_packWord]; simp [hi, show ¬ 16 + i < 8 by omega]

@[simp] theorem fieldZ_packWord (op a b : Byte) : fieldZ (packWord op a b) = 0 := by
  apply BitVec.eq_of_getLsbD_eq; intro i hi
  simp only [fieldZ, BitVec.getLsbD_extractLsb', getLsbD_packWord]
  simp [show ¬ 24 + i < 8 by omega, show ¬ 24 + i < 16 by omega]
  intro _; apply BitVec.getLsbD_of_ge; omega

/-- A word with `Z = 0` is the pack of its three other fields. -/
theorem packWord_fields (w : Word) (h : fieldZ w = 0) : packWord (fieldOp w) (fieldA w) (fieldB w) = w := by
  apply BitVec.eq_of_getLsbD_eq; intro i hi
  rw [getLsbD_packWord]
  simp only [fieldB, fieldA, fieldOp, BitVec.getLsbD_extractLsb']
  by_cases h1 : i < 8
  · simp [h1]
  · by_cases h2 : i < 16
    · simp [h1, h2, show i - 8 < 8 by omega, show 8 + (i - 8) = i by omega]
    · by_cases h3 : i < 24
      · simp [h1, h2, show i - 16 < 8 by omega, show 16 + (i - 16) = i by omega]
      · have := congrArg (fun z => BitVec.getLsbD z (i - 24)) h
        simp [fieldZ, show i - 24 < 8 by omega, show 24 + (i - 24) = i by omega] at this
        simp [h1, h2, show ¬ i - 16 < 8 by omega, this]

/-- Decoding a packed word is decoding its three fields. -/
theorem decode_packWord (op a b : Byte) : decode (packWord op a b) = decodeFields op a b := by
  unfold decode; rw [fieldOp_packWord, fieldA_packWord, fieldB_packWord, fieldZ_packWord]; rfl

theorem noOperand_ok {a b : Byte} {i j : Instr} (h : noOperand a b i = .ok j) : b = 0 ∧ a = 0 ∧ i = j := by
  unfold noOperand at h; split at h
  · cases h
  · split at h
    · cases h
    · cases h; simp_all

theorem oneOperand_ok {a b : Byte} {i : Byte → Instr} {j : Instr} (h : oneOperand a b i = .ok j) : b = 0 ∧ i a = j := by
  unfold oneOperand at h; split at h
  · cases h
  · cases h; simp_all

/-- The command three fields decode to is well formed and has just these fields. -/
theorem decodeFields_ok {op a b : Byte} {i : Instr} (h : decodeFields op a b = .ok i) :
    i.wellFormed = true ∧ opcode i = op ∧ operandA i = a ∧ operandB i = b := by
  unfold decodeFields at h
  split at h
  case h_1 => cases h; exact ⟨rfl, rfl, rfl, rfl⟩
  case h_8 =>
    obtain ⟨rfl, rfl⟩ := oneOperand_ok h
    exact ⟨by simp [Instr.wellFormed, a.isLt], rfl, by simp [operandA], rfl⟩
  case h_21 => cases h
  all_goals (obtain ⟨rfl, rfl, rfl⟩ := noOperand_ok h; exact ⟨rfl, rfl, rfl, rfl⟩)

end Sys2Proof
end

