-- ==== Sys2Proof/Laws/HostPort.lean ====
section
/-! SUPPORT. What one host access, one command entry and one step can do: inversion lemmas, so that no later proof splits
an address or a register again. -/

namespace Sys2Proof.Machine

/-- The control register a host address names: the address is below the windows. -/
theorem target_register {cap addr : Word} {off : Nat} (h : target cap addr = .register off) :
    off = addr.toNat ∧ addr.toNat < 0x40 := by
  unfold target at h
  simp only at h
  split at h
  · next hlt => cases h; exact ⟨rfl, hlt⟩
  · split at h
    · cases h
    · split at h
      · cases h
      · split at h
        · cases h
        · split at h <;> cases h

/-- A buffer target is inside the buffer, and its address is the window's base plus the index. -/
theorem target_buffer {cap addr : Word} {a : Nat} (h : target cap addr = .buffer a) :
    a < cap.toNat ∧ addr.toNat = 0x10000 + a := by
  unfold target at h
  simp only at h
  split at h
  · cases h
  · split at h
    · cases h
    · split at h
      · cases h
      · split at h
        · cases h
        · split at h
          · next hb => rw [Target.buffer.injEq] at h; omega
          · cases h

/-- The window addresses and what they name. -/
theorem target_key (cap : Word) (i : Fin 32) : target cap (BitVec.ofNat 32 (0x100 + i.val)) = .key i := by
  have h : (BitVec.ofNat 32 (0x100 + i.val)).toNat = 0x100 + i.val := by simp only [BitVec.toNat_ofNat]; omega
  unfold target
  simp only [h]
  rw [if_neg (by omega), dif_pos (by omega)]
  simp

theorem target_state (cap : Word) (j : Fin 16) : target cap (BitVec.ofNat 32 (0x120 + j.val)) = .state j := by
  have h : (BitVec.ofNat 32 (0x120 + j.val)).toNat = 0x120 + j.val := by simp only [BitVec.toNat_ofNat]; omega
  unfold target
  simp only [h]
  rw [if_neg (by omega), dif_neg (by omega), dif_pos (by omega)]
  simp

theorem target_wb (cap : Word) (n : Fin 240) : target cap (BitVec.ofNat 32 (0x200 + n.val)) = .wb n := by
  have h : (BitVec.ofNat 32 (0x200 + n.val)).toNat = 0x200 + n.val := by simp only [BitVec.toNat_ofNat]; omega
  unfold target
  simp only [h]
  rw [if_neg (by omega), dif_neg (by omega), dif_neg (by omega), dif_pos (by omega)]
  simp

theorem target_ofNat_buffer (cap : Word) (a : Nat) (ha : a < cap.toNat) (hc : cap.toNat ≤ 2 ^ 31) :
    target cap (BitVec.ofNat 32 (0x10000 + a)) = .buffer a := by
  have h : (BitVec.ofNat 32 (0x10000 + a)).toNat = 0x10000 + a := by simp only [BitVec.toNat_ofNat]; omega
  unfold target
  simp only [h]
  rw [if_neg (by omega), dif_neg (by omega), dif_neg (by omega), dif_neg (by omega), if_pos (by omega)]
  simp

/-- The register a 32-bit access names is at the access's address. -/
theorem registerOf_some {cap addr : Word} {r : ControlRegister} (h : registerOf cap addr = some r) :
    registerAt addr.toNat = some r := by
  unfold registerOf at h
  split at h
  · next off ho => rw [← (target_register ho).1]; exact h
  all_goals cases h

/-- Below offset 0x40 the register at the address is named. -/
theorem registerOf_low (cap : Word) {addr : Word} (h : addr.toNat < 0x40) : registerOf cap addr = registerAt addr.toNat := by
  have : target cap addr = .register addr.toNat := by unfold target; simp [h]
  simp [registerOf, this]

theorem registerAt_cmd {off : Nat} (h : registerAt off = some .cmd) : off = 0 := by
  unfold registerAt at h; split at h <;> simp_all

theorem registerAt_status {off : Nat} (h : registerAt off = some .status) : off = 4 := by
  unfold registerAt at h; split at h <;> simp_all

@[simp] theorem registerOf_cmd (cap : Word) : registerOf cap 0x00000000#32 = some .cmd := rfl

@[simp] theorem registerOf_pos (cap : Word) : registerOf cap 0x00000014#32 = some .pos := rfl

/-- A word written to `CMD` runs the command entry procedure. -/
theorem hostAccess_issue (w : Word) {s : State} (hb : s.BUSY = false) :
    hostAccess (issue w) s = answer .written (commandEntry w s) := by
  simp [hostAccess, hostWrite32, issue, hb]

/-- While a command runs, every 32-bit write is refused. -/
theorem hostWrite32_busy (addr v : Word) {s : State} (hb : s.BUSY = true) :
    hostWrite32 addr v s = .next { s with replies := s.replies ++ [.busError] } := by
  simp [hostWrite32, hb, writeOutcome, answer]

/-- What one taken write of a register or window byte can do: one field, within its bounds. -/
inductive DataWrite (s : State) : State → Prop where
  | cfg (v : Word) : DataWrite s (writeCfg v s)
  | klen (v : Word) : DataWrite s { s with KLEN := v.setWidth 8 }
  | len (v : Word) (h : v.toNat ≤ s.CAP.toNat) : DataWrite s { s with LEN := v }
  | pos (v : Word) : DataWrite s { s with POS := v }
  | key (i : Fin 32) (v : Byte) : DataWrite s { s with KEY := s.KEY.set i v }
  | block (j : Fin 16) (v : Byte) : DataWrite s { s with S := s.S.set j v }
  | buffer (a : Nat) (v : Byte) (h : a < s.CAP.toNat) : DataWrite s { s with BUF := s.BUF.write a v }

theorem hostWrite8_some {addr : Word} {v : Byte} {s u : State} (h : hostWrite8 addr v s = some u) :
    s.BUSY = false ∧ DataWrite s u := by
  unfold hostWrite8 at h
  split at h
  · cases h
  · next hb =>
    refine ⟨by simpa using hb, ?_⟩
    split at h
    · next i _ => cases h; exact .key i v
    · next j _ => cases h; exact .block j v
    · next a ha => cases h; exact .buffer a v (target_buffer ha).1
    all_goals cases h

theorem writeRegister_some {r : ControlRegister} {v : Word} {s u : State} (h : writeRegister r v s = some u) :
    DataWrite s u := by
  cases r
  case cfg => cases h; exact .cfg v
  case klen => cases h; exact .klen v
  case len =>
    unfold writeRegister at h
    simp only at h
    split at h
    · next hl => cases h; exact .len v hl
    · cases h
  case pos => cases h; exact .pos v
  all_goals cases h

/-- What one host access that answers a next state did: it ran the command entry procedure, or it changed nothing, or it
wrote one field; and it appended one reply. -/
theorem hostAccess_cases {a : HostAccess} {s t : State} (h : hostAccess a s = .next t) :
    ∃ u r, t = { u with replies := u.replies ++ [r] } ∧
      ((∃ w, a = issue w ∧ commandEntry w s = .next u) ∨ u = s ∨ (s.BUSY = false ∧ DataWrite s u)) := by
  cases a with
  | read8 addr => exact ⟨s, _, (Host.Outcome.next.inj h).symm, .inr (.inl rfl)⟩
  | read32 addr => exact ⟨s, _, (Host.Outcome.next.inj h).symm, .inr (.inl rfl)⟩
  | otherWidth bits addr => exact ⟨s, _, (Host.Outcome.next.inj h).symm, .inr (.inl rfl)⟩
  | write8 addr v =>
    simp only [hostAccess] at h
    cases hw : hostWrite8 addr v s with
    | none => rw [hw] at h; exact ⟨s, _, (Host.Outcome.next.inj h).symm, .inr (.inl rfl)⟩
    | some u =>
      rw [hw] at h
      exact ⟨u, _, (Host.Outcome.next.inj h).symm, .inr (.inr (hostWrite8_some hw))⟩
  | write32 addr v =>
    by_cases hb : s.BUSY = true
    · exact ⟨s, .busError, (Host.Outcome.next.inj ((hostWrite32_busy addr v hb).symm.trans h)).symm, .inr (.inl rfl)⟩
    simp only [hostAccess, hostWrite32, if_neg hb] at h
    cases hr : registerOf s.CAP addr with
    | none => rw [hr] at h; exact ⟨s, _, (Host.Outcome.next.inj h).symm, .inr (.inl rfl)⟩
    | some r =>
      rw [hr] at h
      by_cases hc : r = .cmd
      · subst hc
        obtain ⟨u, hu, rfl⟩ := answer_next.mp h
        have ha : addr = 0x00000000#32 := BitVec.eq_of_toNat_eq (registerAt_cmd (registerOf_some hr))
        exact ⟨u, .written, rfl, .inl ⟨v, by rw [ha]; rfl, hu⟩⟩
      · have h2 : writeOutcome s (writeRegister r v s) = .next t := by
          cases r <;> first | exact absurd rfl hc | exact h
        cases hw : writeRegister r v s with
        | none => rw [hw] at h2; exact ⟨s, _, (Host.Outcome.next.inj h2).symm, .inr (.inl rfl)⟩
        | some u =>
          rw [hw] at h2
          exact ⟨u, _, (Host.Outcome.next.inj h2).symm, .inr (.inr ⟨by simpa using hb, writeRegister_some hw⟩)⟩

/-- What the command entry procedure can do. -/
theorem commandEntry_cases {w : Word} {s t : State} (h : commandEntry w s = .next t) :
    t = s ∨ (s.BUSY = false ∧ (s.ERR = 0 ∨ w = 0x000000F0 ∨ w = 0x000000FF) ∧
      (((∃ e, decode w = .error e) ∧ t = s.faulted 4) ∨ ∃ i, decode w = .ok i ∧ exec i s = .next t)) := by
  unfold commandEntry at h
  split at h
  · exact .inl (Host.Outcome.next.inj h).symm
  · next hb =>
    split at h
    · exact .inl (Host.Outcome.next.inj h).symm
    · next hl =>
      refine .inr ⟨by simpa using hb, ?_, ?_⟩
      · by_cases he : s.ERR = 0
        · exact .inl he
        · have : passesLatch w = true := by
            cases hp : passesLatch w
            · exact absurd ⟨he, hp⟩ hl
            · rfl
          simp only [passesLatch, Bool.or_eq_true, beq_iff_eq] at this; exact Or.inr this
      · split at h
        · next e he => exact .inl ⟨⟨e, he⟩, (Host.Outcome.next.inj h).symm⟩
        · next i hi => exact .inr ⟨i, hi, h⟩

/-- A step performs the oldest pending access. -/
theorem step_cons {s : State} {a : HostAccess} {rest : List HostAccess} (h : s.pending = a :: rest) :
    step s = hostAccess a { s with pending := rest } := by
  simp [step, nextAccess, h]

end Sys2Proof.Machine
end

