-- ==== Sys2Proof/Laws/Padding.lean ====
section
/-! SUPPORT. The pad length, the unpad check against the predicate of a valid trailer, and the three valid key lengths as
numbers. -/

namespace Sys2Proof.Machine

theorem padLen_pos (l : Nat) : 1 ≤ padLen l := by unfold padLen; omega

theorem padLen_le (l : Nat) : padLen l ≤ 16 := by unfold padLen; omega

theorem padLen_whole (l : Nat) : (l + padLen l) % 16 = 0 := by unfold padLen; omega

theorem keyLenValid_iff {k : Byte} : keyLenValid k = true ↔ k.toNat = 16 ∨ k.toNat = 24 ∨ k.toNat = 32 := by
  have h : ∀ n : Byte, k = n ↔ k.toNat = n.toNat := fun n => BitVec.toNat_inj.symm
  simp [keyLenValid, h, or_assoc]

theorem keyLenValid_false {k : Byte} : keyLenValid k = false ↔ k.toNat ≠ 16 ∧ k.toNat ≠ 24 ∧ k.toNat ≠ 32 := by
  rw [← Bool.not_eq_true, keyLenValid_iff]; tauto

theorem padFits_iff {s : State} : padFits s = true ↔ s.LEN.toNat + padLen s.LEN.toNat ≤ s.CAP.toNat := by
  simp [padFits]

theorem wholeBlocks_iff {s : State} : wholeBlocks s = true ↔ s.LEN.toNat % 16 = 0 := by simp [wholeBlocks]

theorem blockInRange_iff {s : State} :
    blockInRange s = true ↔ s.POS.toNat % 16 = 0 ∧ s.POS.toNat + 16 ≤ s.LEN.toNat := by
  simp [blockInRange]

/-- The check passes exactly on a valid trailer. -/
theorem unpadCheck_none {m : Memory} {l : Nat} : unpadCheck m l = none ↔ validPad m.read l := by
  unfold unpadCheck validPad
  by_cases h1 : l = 0 ∨ l % 16 ≠ 0
  · simp only [h1, if_true]
    constructor
    · intro h; cases h
    · rintro ⟨a, b, _⟩; omega
  · rw [if_neg h1]
    simp only
    by_cases h2 : (m.read (l - 1)).toNat < 1 ∨ 16 < (m.read (l - 1)).toNat
    · rw [if_pos h2]
      constructor
      · intro h; cases h
      · rintro ⟨_, _, c, d, _⟩; omega
    · rw [if_neg h2]
      have h3 : ((List.range (m.read (l - 1)).toNat).all fun i => m.read (l - 1 - i) == m.read (l - 1)) = true ↔
          ∀ i < (m.read (l - 1)).toNat, m.read (l - 1 - i) = m.read (l - 1) := by
        simp
      split
      · next h => exact ⟨fun _ => ⟨by omega, by omega, by omega, by omega, h3.mp h⟩, fun _ => rfl⟩
      · next h =>
        constructor
        · intro hh; cases hh
        · intro hh; exact absurd (h3.mpr hh.2.2.2.2) h

theorem unpadCheck_length {m : Memory} {l : Nat} (h : l = 0 ∨ l % 16 ≠ 0) : unpadCheck m l = some .invalidLength := by
  unfold unpadCheck; rw [if_pos h]

theorem unpadCheck_padding {m : Memory} {l : Nat} (h0 : l ≠ 0) (h1 : l % 16 = 0) (h : ¬ validPad m.read l) :
    unpadCheck m l = some .invalidPadding := by
  have hn : unpadCheck m l ≠ none := fun hh => h (unpadCheck_none.mp hh)
  unfold unpadCheck at hn ⊢
  rw [if_neg (by omega)] at hn ⊢
  simp only at hn ⊢
  split
  · rfl
  · next h2 =>
    rw [if_neg h2] at hn
    split
    · next h3 => rw [if_pos h3] at hn; exact absurd rfl hn
    · rfl

/-- What a byte of the buffer reads as after the pad is appended. -/
theorem padBuffer_read (s : State) (a : Nat) : (padBuffer s).BUF.read a =
    if s.LEN.toNat ≤ a ∧ a < s.LEN.toNat + padLen s.LEN.toNat then BitVec.ofNat 8 (padLen s.LEN.toNat)
    else s.BUF.read a := by
  rw [padBuffer_BUF, Memory.read_writeBytes]
  simp

theorem padBuffer_LEN_toNat (s : State) (h : s.LEN.toNat + padLen s.LEN.toNat < 2 ^ 32) :
    (padBuffer s).LEN.toNat = s.LEN.toNat + padLen s.LEN.toNat := by
  rw [padBuffer_LEN, BitVec.toNat_ofNat]; exact Nat.mod_eq_of_lt h

theorem unpadBuffer_LEN_toNat (s : State) :
    (unpadBuffer s).LEN.toNat = s.LEN.toNat - (s.BUF.read (s.LEN.toNat - 1)).toNat := by
  have := s.LEN.isLt
  rw [unpadBuffer_LEN, BitVec.toNat_ofNat]; omega

end Sys2Proof.Machine
end

