-- ==== Sys2Proof/Laws/KeySchedule.lean ====
section
/-! SUPPORT. The list of words the key schedule builds: its length, that a word once made is kept, the recurrence at each
index; and the words of `W` after they are loaded. -/

namespace Sys2Proof.Machine

@[simp] theorem length_extendWords (nk n : Nat) (ws : List KeyWord) : (extendWords nk n ws).length = ws.length + n := by
  induction n generalizing ws with
  | zero => rfl
  | succ n ih => rw [extendWords, ih]; simp; omega

@[simp] theorem length_keyWords (key : Vector Byte 32) (nk : Nat) : (keyWords key nk).length = nk := by simp [keyWords]

/-- The schedule makes `4*(Nr+1)` words. -/
theorem length_expandKey (key : Vector Byte 32) (klen : Byte) : (expandKey key klen).length = 4 * (nrOf klen + 1) := by
  unfold expandKey
  rw [length_extendWords, length_keyWords]
  unfold nrOf
  omega

/-- A word once made is kept. -/
theorem wordAt_extendWords_lt (nk n : Nat) (ws : List KeyWord) (i : Nat) (h : i < ws.length) :
    wordAt (extendWords nk n ws) i = wordAt ws i := by
  induction n generalizing ws with
  | zero => rfl
  | succ n ih =>
    rw [extendWords, ih _ (by simp; omega)]
    unfold wordAt; simp [List.getD, h, List.getElem?_append]

/-- Each word made is the one R152 gives, read off the finished list. -/
theorem wordAt_extendWords (nk n : Nat) (ws : List KeyWord) (hnk : 0 < nk) (hw : nk ≤ ws.length) (i : Nat)
    (h1 : ws.length ≤ i) (h2 : i < ws.length + n) :
    wordAt (extendWords nk n ws) i = xorWord (wordAt (extendWords nk n ws) (i - nk))
      (if i % nk = 0 then
        xorWord (subWord (rotWord (wordAt (extendWords nk n ws) (i - 1)))) (rconWord (i / nk))
      else if 6 < nk ∧ i % nk = 4 then subWord (wordAt (extendWords nk n ws) (i - 1))
      else wordAt (extendWords nk n ws) (i - 1)) := by
  induction n generalizing ws with
  | zero => omega
  | succ n ih =>
    by_cases hi : i = ws.length
    · have hl : ∀ j, j < ws.length + 1 → wordAt (extendWords nk (n + 1) ws) j = wordAt (ws ++ [nextWord nk ws]) j :=
        fun j hj => wordAt_extendWords_lt nk n _ j (by simp; omega)
      have hl2 : ∀ j, j < ws.length → wordAt (ws ++ [nextWord nk ws]) j = wordAt ws j := by
        intro j hj; unfold wordAt; simp [List.getD, hj, List.getElem?_append]
      have h3 : wordAt (ws ++ [nextWord nk ws]) ws.length = nextWord nk ws := by unfold wordAt; simp [List.getD]
      rw [hl i (by omega), hl (i - nk) (by omega), hl (i - 1) (by omega), hl2 (i - nk) (by omega),
        hl2 (i - 1) (by omega), hi, h3]
      rfl
    · exact ih (ws ++ [nextWord nk ws]) (by simp; omega) (by simp; omega) (by simp; omega)

theorem wordAt_keyWords (key : Vector Byte 32) (nk i : Nat) (h : i < nk) :
    wordAt (keyWords key nk) i = Vector.ofFn fun k : Fin 4 => keyByte key (4 * i + k.val) := by
  unfold wordAt keyWords; simp [List.getD, h]

theorem wByte_loadWords (w : KeyMemory) (ws : List KeyWord) (i k : Nat) (h : i < ws.length) (hi : i < 60) (hk : k < 4) :
    wByte (loadWords w ws) i k = (wordAt ws i)[k] := by
  rw [wByte_eq _ _ _ hi hk]; simp [loadWords, h]

theorem getElem_loadWords_ge (w : KeyMemory) (ws : List KeyWord) (i : Nat) (h : ws.length ≤ i) (hi : i < 60) :
    (loadWords w ws)[i] = w[i] := by
  simp [loadWords, Nat.not_lt.mpr h]

@[simp] theorem loadWords_loadWords (w : KeyMemory) (ws : List KeyWord) :
    loadWords (loadWords w ws) ws = loadWords w ws := by
  apply Vector.ext; intro i h; simp [loadWords]; intro a b; omega

/-- On a valid key length the 4-bit register holds the round count. -/
theorem toNat_nrOf {klen : Byte} (h : keyLenValid klen = true) : (BitVec.ofNat 4 (nrOf klen)).toNat = nrOf klen := by
  rcases keyLenValid_iff.mp h with h | h | h <;> simp [nrOf, nkOf, h]

end Sys2Proof.Machine
end

