-- ==== Sys2Proof/Laws/PerInstr.lean ====
section
/-! SUPPORT. What is said of each command as syntax, one lemma for each constructor. -/

namespace Sys2Proof.Laws.WordShape

/-- The four fields of a command's word (R90 to R93): `Z` is zero, `OP` is its opcode, `A` and `B` are its operands. -/
def Statement (i : Instr) : Prop :=
  fieldZ (encode i) = 0 ∧ fieldOp (encode i) = opcode i ∧ fieldA (encode i) = operandA i ∧ fieldB (encode i) = operandB i

theorem of_instr (i : Instr) : Statement i := by simp [Statement, encode]

theorem gfmul (a b : Byte) : Statement (.gfmul a b) := of_instr _
theorem subbytes : Statement .subbytes := of_instr _
theorem invsubbytes : Statement .invsubbytes := of_instr _
theorem shiftrows : Statement .shiftrows := of_instr _
theorem invshiftrows : Statement .invshiftrows := of_instr _
theorem mixcolumns : Statement .mixcolumns := of_instr _
theorem invmixcolumns : Statement .invmixcolumns := of_instr _
theorem addroundkey (r : Nat) : Statement (.addroundkey r) := of_instr _
theorem expandkey : Statement .expandkey := of_instr _
theorem encblk : Statement .encblk := of_instr _
theorem decblk : Statement .decblk := of_instr _
theorem pad : Statement .pad := of_instr _
theorem unpad : Statement .unpad := of_instr _
theorem ldblk : Statement .ldblk := of_instr _
theorem stblk : Statement .stblk := of_instr _
theorem streamenc : Statement .streamenc := of_instr _
theorem streamdec : Statement .streamdec := of_instr _
theorem rawdec : Statement .rawdec := of_instr _
theorem clrerr : Statement .clrerr := of_instr _
theorem sreset : Statement .sreset := of_instr _

end Sys2Proof.Laws.WordShape
end

