-- ==== Sys2Proof/Laws/Stream.lean ====
section
/-! SUPPORT. What one pass of the block loop does and what `n` passes do: the position, the buffer, the state register and
the events. -/

namespace Sys2Proof.Machine

theorem strideProgress_EV (s : State) : (strideProgress s).EV =
    s.EV ++ if s.PROGEN = true ∧ s.POS.toNat % Config.stride = 0 then [.progress s.POS s.TOTAL] else [] := by
  unfold strideProgress; split <;> simp

theorem finalProgress_EV (s : State) : (finalProgress s).EV =
    s.EV ++ if s.PROGEN = true ∧ (s.TOTAL.toNat % Config.stride ≠ 0 ∨ s.TOTAL.toNat = 0) then
      [.progress s.TOTAL s.TOTAL] else [] := by
  unfold finalProgress; split <;> simp

/-- The block core on the block at `a` of a buffer, in internal order. -/
def cryptAt (d : Direction) (m : Memory) (w : KeyMemory) (nr a : Nat) : Block :=
  cryptState d (toInternal (m.readBlock a)) w nr

@[simp] theorem processBlock_POS (d : Direction) (s : State) : (processBlock d s).POS = s.POS + 16 := by
  simp [processBlock]

theorem processBlock_S (d : Direction) (s : State) :
    (processBlock d s).S = cryptAt d s.BUF s.W s.NR.toNat s.POS.toNat := by
  simp [processBlock, cryptAt]

theorem processBlock_BUF (d : Direction) (s : State) : (processBlock d s).BUF =
    s.BUF.writeBlock s.POS.toNat (toExternal (cryptAt d s.BUF s.W s.NR.toNat s.POS.toNat)) := by
  simp [processBlock, cryptAt]

theorem processBlock_EV (d : Direction) (s : State) : (processBlock d s).EV =
    s.EV ++ if s.PROGEN = true ∧ (s.POS + 16).toNat % Config.stride = 0 then [.progress (s.POS + 16) s.TOTAL] else [] := by
  simp [processBlock, strideProgress_EV]

/-- The last of `n + 1` passes stands outside. -/
theorem processBlocks_succ (d : Direction) (n : Nat) (s : State) :
    processBlocks d (n + 1) s = processBlock d (processBlocks d n s) := by
  induction n generalizing s with
  | zero => rfl
  | succ n ih => rw [processBlocks, ih, processBlocks]

theorem processBlocks_POS (d : Direction) (n : Nat) (s : State) (h : s.POS.toNat + 16 * n < 2 ^ 32) :
    (processBlocks d n s).POS.toNat = s.POS.toNat + 16 * n := by
  induction n with
  | zero => rfl
  | succ n ih =>
    rw [processBlocks_succ, processBlock_POS, BitVec.toNat_add, ih (by omega)]
    simp only [BitVec.reduceToNat]
    omega

/-- The buffer after `n` passes: each 16-byte block passed is the block core's output on the old block, on its own; every
other byte is as before. -/
theorem processBlocks_read (d : Direction) (n : Nat) (s : State) (h : s.POS.toNat + 16 * n < 2 ^ 32) (a : Nat) :
    (processBlocks d n s).BUF.read a =
      if s.POS.toNat ≤ a ∧ a < s.POS.toNat + 16 * n then
        (toExternal (cryptAt d s.BUF s.W s.NR.toNat (s.POS.toNat + 16 * ((a - s.POS.toNat) / 16))))[
          (a - s.POS.toNat) % 16]
      else s.BUF.read a := by
  induction n generalizing a with
  | zero => rw [if_neg (by omega)]; rfl
  | succ n ih =>
    have hp := processBlocks_POS d n s (by omega)
    have old : (processBlocks d n s).BUF.readBlock (s.POS.toNat + 16 * n) = s.BUF.readBlock (s.POS.toNat + 16 * n) := by
      apply Vector.ext
      intro i hi
      rw [Memory.getElem_readBlock, Memory.getElem_readBlock, ih (by omega), if_neg (by omega)]
    rw [processBlocks_succ, processBlock_BUF, Memory.read_writeBlock, hp]
    by_cases hn : s.POS.toNat + 16 * n ≤ a ∧ a < s.POS.toNat + 16 * n + 16
    · have hq : (a - s.POS.toNat) / 16 = n := by omega
      have hm : (a - s.POS.toNat) % 16 = a - (s.POS.toNat + 16 * n) := by omega
      rw [dif_pos hn, if_pos (by omega)]
      simp only [cryptAt, old, processBlocks_W, processBlocks_NR, hq, hm]
    · rw [dif_neg hn, ih (by omega)]
      by_cases ha : s.POS.toNat ≤ a ∧ a < s.POS.toNat + 16 * n
      · rw [if_pos ha, if_pos (by omega)]
      · rw [if_neg ha, if_neg (by omega)]

/-- The state register after at least one pass holds the last block's output. -/
theorem processBlocks_S (d : Direction) (n : Nat) (s : State) (h : s.POS.toNat + 16 * (n + 1) < 2 ^ 32) :
    (processBlocks d (n + 1) s).S = cryptAt d s.BUF s.W s.NR.toNat (s.POS.toNat + 16 * n) := by
  have old : (processBlocks d n s).BUF.readBlock (s.POS.toNat + 16 * n) = s.BUF.readBlock (s.POS.toNat + 16 * n) := by
    apply Vector.ext
    intro i hi
    rw [Memory.getElem_readBlock, Memory.getElem_readBlock, processBlocks_read d n s (by omega), if_neg (by omega)]
  rw [processBlocks_succ, processBlock_S, processBlocks_POS d n s (by omega)]
  simp only [cryptAt, old, processBlocks_W, processBlocks_NR]

/-- The events of a loop of `n` passes from position 0: one at each multiple of the stride that the position passed. -/
theorem processBlocks_EV (d : Direction) (n : Nat) (s : State) (h0 : s.POS = 0) (h : 16 * n < 2 ^ 32) :
    (processBlocks d n s).EV = s.EV ++ if s.PROGEN = true then
      (List.range (16 * n / 2048)).map (fun i => .progress (BitVec.ofNat 32 (2048 * (i + 1))) s.TOTAL) else [] := by
  induction n with
  | zero => simp [processBlocks]
  | succ n ih =>
    have hpos : (processBlocks d n s).POS + 16 = BitVec.ofNat 32 (16 * (n + 1)) := by
      apply BitVec.eq_of_toNat_eq
      rw [BitVec.toNat_add, processBlocks_POS d n s (by rw [h0]; simpa using Nat.lt_of_le_of_lt (by omega) h), h0]
      simp only [BitVec.reduceToNat, BitVec.toNat_ofNat]
      omega
    have hnat : (BitVec.ofNat 32 (16 * (n + 1))).toNat = 16 * (n + 1) := by
      simp only [BitVec.toNat_ofNat]; omega
    rw [processBlocks_succ, processBlock_EV, ih (by omega), hpos, hnat]
    simp only [processBlocks_PROGEN, processBlocks_TOTAL, Config.stride]
    by_cases hg : s.PROGEN = true
    · by_cases hm : 16 * (n + 1) % 2048 = 0
      · have hd : 16 * (n + 1) / 2048 = 16 * n / 2048 + 1 := by omega
        have he : 2048 * (16 * n / 2048 + 1) = 16 * (n + 1) := by omega
        rw [hd, List.range_succ]
        simp [hg, hm, he]
      · have hd : 16 * (n + 1) / 2048 = 16 * n / 2048 := by omega
        simp [hg, hm, hd]
    · simp [hg]

/-- The whole loop, `LEN` a multiple of 16: it ends with `POS = LEN`. -/
theorem blockLoop_POS (d : Direction) (s : State) (h : s.LEN.toNat % 16 = 0) : (blockLoop d s).POS = s.LEN := by
  apply BitVec.eq_of_toNat_eq
  have := s.LEN.isLt
  rw [blockLoop, finalProgress_POS, processBlocks_POS]
  · simp; omega
  · simp; omega

theorem blockLoop_read (d : Direction) (s : State) (h : s.LEN.toNat % 16 = 0) (a : Nat) :
    (blockLoop d s).BUF.read a =
      if a < s.LEN.toNat then (toExternal (cryptAt d s.BUF s.W s.NR.toNat (16 * (a / 16))))[a % 16]
      else s.BUF.read a := by
  have := s.LEN.isLt
  rw [blockLoop, finalProgress_BUF, processBlocks_read]
  · have he : 16 * (s.LEN.toNat / 16) = s.LEN.toNat := by omega
    simp [he]
  · simp; omega

theorem blockLoop_S (d : Direction) (s : State) (h : s.LEN.toNat % 16 = 0) (h0 : s.LEN ≠ 0) :
    (blockLoop d s).S = cryptAt d s.BUF s.W s.NR.toNat (16 * (s.LEN.toNat / 16 - 1)) := by
  have := s.LEN.isLt
  have hpos : s.LEN.toNat ≠ 0 := fun hh => h0 (BitVec.eq_of_toNat_eq hh)
  obtain ⟨n, hn⟩ : ∃ n, s.LEN.toNat / 16 = n + 1 := ⟨s.LEN.toNat / 16 - 1, by omega⟩
  rw [blockLoop, finalProgress_S, hn, processBlocks_S]
  · simp
  · simp; omega

theorem blockLoop_S_empty (d : Direction) (s : State) (h0 : s.LEN = 0) : (blockLoop d s).S = s.S := by
  simp [blockLoop, h0, processBlocks]

theorem blockLoop_BUF_empty (d : Direction) (s : State) (h0 : s.LEN = 0) : (blockLoop d s).BUF = s.BUF := by
  simp [blockLoop, h0, processBlocks]

/-- The events of the whole loop. -/
theorem blockLoop_EV (d : Direction) (s : State) (h : s.LEN.toNat % 16 = 0) :
    (blockLoop d s).EV = s.EV ++ emittedProgress s s.LEN.toNat := by
  have := s.LEN.isLt
  rw [blockLoop, finalProgress_EV, processBlocks_EV _ _ _ rfl (by omega)]
  have he : 16 * (s.LEN.toNat / 16) = s.LEN.toNat := by omega
  simp only [processBlocks_PROGEN, processBlocks_TOTAL, startLoop_PROGEN, startLoop_TOTAL, startLoop_EV, he,
    emittedProgress, progressEvents, BitVec.ofNat_toNat, BitVec.setWidth_eq, Config.stride]
  by_cases hg : s.PROGEN = true <;> simp [hg]

theorem readBlock_blockOf (m : Memory) (n : Nat) : m.readBlock (16 * n) = blockOf m.read n := by
  simp [Memory.readBlock, blockOf]

/-- The buffer after key, loop and discard, read byte by byte. -/
theorem streamBlocks_read (d : Direction) (s : State) (hk : keyLenValid s.KLEN = true) (h : s.LEN.toNat % 16 = 0)
    (a : Nat) : (streamBlocks d s).BUF.read a =
      if a < s.LEN.toNat then cryptedByte d s s.BUF.read a else s.BUF.read a := by
  have e : (streamBlocks d s).BUF = (blockLoop d (loadExpandedKey s)).BUF := by rw [streamBlocks]; rfl
  rw [e, blockLoop_read _ _ (by simpa using h)]
  simp only [loadExpandedKey_LEN, loadExpandedKey_BUF, loadExpandedKey_W, loadExpandedKey_NR, toNat_nrOf hk, cryptAt,
    readBlock_blockOf, cryptedByte]

/-- The state register after a loop over at least one block is the last block of the buffer, in internal order. -/
theorem streamBlocks_S (d : Direction) (s : State) (hk : keyLenValid s.KLEN = true) (h : s.LEN.toNat % 16 = 0)
    (h0 : s.LEN ≠ 0) :
    (streamBlocks d s).S = toInternal (blockOf (streamBlocks d s).BUF.read (s.LEN.toNat / 16 - 1)) := by
  have h1 : s.LEN.toNat ≠ 0 := fun hh => h0 (BitVec.eq_of_toNat_eq hh)
  have e : (streamBlocks d s).S = (blockLoop d (loadExpandedKey s)).S := by rw [streamBlocks]; rfl
  have hb : blockOf (streamBlocks d s).BUF.read (s.LEN.toNat / 16 - 1) = toExternal
      (cryptAt d s.BUF (loadExpandedKey s).W (nrOf s.KLEN) (16 * (s.LEN.toNat / 16 - 1))) := by
    apply Vector.ext
    intro i hi
    simp only [blockOf, Vector.getElem_ofFn]
    rw [streamBlocks_read d s hk h, if_pos (by omega)]
    have e1 : (16 * (s.LEN.toNat / 16 - 1) + i) / 16 = s.LEN.toNat / 16 - 1 := by omega
    have e2 : (16 * (s.LEN.toNat / 16 - 1) + i) % 16 = i := by omega
    simp only [cryptedByte, e1, e2, cryptAt, readBlock_blockOf, loadExpandedKey_W]
  rw [e, blockLoop_S _ _ (by simpa using h) (by simpa using h0), hb]
  exact (transpose_transpose _).symm.trans (by
    simp only [loadExpandedKey_BUF, loadExpandedKey_NR, toNat_nrOf hk, loadExpandedKey_LEN, toInternal, toExternal])

theorem streamBlocks_S_empty (d : Direction) (s : State) (h0 : s.LEN = 0) : (streamBlocks d s).S = s.S := by
  have e : (streamBlocks d s).S = (blockLoop d (loadExpandedKey s)).S := by rw [streamBlocks]; rfl
  rw [e, blockLoop_S_empty _ _ (by simpa using h0)]; simp

theorem streamBlocks_POS (d : Direction) (s : State) (h : s.LEN.toNat % 16 = 0) : (streamBlocks d s).POS = s.LEN := by
  have e : (streamBlocks d s).POS = (blockLoop d (loadExpandedKey s)).POS := by rw [streamBlocks]; rfl
  rw [e, blockLoop_POS _ _ (by simpa using h)]; simp

theorem streamBlocks_EV (d : Direction) (s : State) (h : s.LEN.toNat % 16 = 0) :
    (streamBlocks d s).EV = s.EV ++ emittedProgress s s.LEN.toNat := by
  have e : (streamBlocks d s).EV = (blockLoop d (loadExpandedKey s)).EV := by rw [streamBlocks]; rfl
  rw [e, blockLoop_EV _ _ (by simpa using h)]; simp [emittedProgress]

/-- The loop keeps the buffer memory in canonical form and inside the capacity. -/
theorem validBuf_processBlocks (d : Direction) (n : Nat) (s : State) (hb : validBuf s.CAP s.BUF)
    (h : s.POS.toNat + 16 * n ≤ s.CAP.toNat) : validBuf s.CAP (processBlocks d n s).BUF := by
  have := s.CAP.isLt
  induction n with
  | zero => exact hb
  | succ n ih =>
    rw [processBlocks_succ, processBlock_BUF]
    exact validBuf_writeBlock (ih (by omega)) _ _ (by rw [processBlocks_POS d n s (by omega)]; omega)

theorem validBuf_streamBlocks (d : Direction) (s : State) (hb : validBuf s.CAP s.BUF) (h : s.LEN.toNat ≤ s.CAP.toNat) :
    validBuf s.CAP (streamBlocks d s).BUF := by
  have e : (streamBlocks d s).BUF = (blockLoop d (loadExpandedKey s)).BUF := by rw [streamBlocks]; rfl
  rw [e, blockLoop, finalProgress_BUF]
  simpa using validBuf_processBlocks d (s.LEN.toNat / 16) (startLoop (loadExpandedKey s)) (by simpa using hb)
    (by simp; omega)

end Sys2Proof.Machine
end

