-- ==== Sys2Proof/Tests/Slice0.lean ====
section
/-! SUPPORT. Tests of one step each, their expected results from the vectors of spec/95_test_vectors.md and
spec/96_test_vectors_buffer.md and the examples of the rules; and for each statement with hypotheses a concrete state that
meets them, clause by clause. -/

namespace Sys2Proof.Tests

open Sys2Proof.Machine

-- One test after another: many at once would ask for more threads than the check's memory limit leaves room for.
set_option Elab.async false

/-! ### Helpers -/

/-- A byte string written as one hexadecimal number, index 0 first. -/
def hexBytes (len n : Nat) : List Byte := (List.range len).map fun i => BitVec.ofNat 8 (n >>> (8 * (len - 1 - i)))

/-- 16 bytes written as one hexadecimal number, index 0 first. -/
def blk (n : Nat) : Block := Vector.ofFn fun i => BitVec.ofNat 8 (n >>> (8 * (15 - i.val)))

/-- The outcome is a next state with the property `p`. -/
def runs (o : Outcome) (p : State → Bool) : Bool :=
  match o with
  | .next t => p t
  | .fault _ => false
  | .refused _ => false

/-- The reset state with the block `n` in `S`. -/
def withS (n : Nat) : State := { State.reset with S := blk n }

/-- `s` with `len` bytes of data in `BUF`. -/
def withBuf (s : State) (len n : Nat) : State :=
  { s with BUF := Memory.writeBytes [] 0 (hexBytes len n), LEN := BitVec.ofNat 32 len }

/-- The reset state with the key `000102..0f` of V1 loaded. -/
def keyed : State :=
  { State.reset with
    KEY := Vector.ofFn fun i => if i.val < 16 then BitVec.ofNat 8 i.val else 0
    KLEN := 16 }

/-- `keyed` after `EXPANDKEY`. -/
def expanded : State := complete (loadExpandedKey (accept keyed))

/-- The first block of `BUF`. -/
def firstBlock (t : State) : Block := t.BUF.readBlock 0

/-! ### Well-formedness and decoding (V60, R93) -/

theorem test_round_index_255_well_formed : (Instr.addroundkey 255).wellFormed = true := by decide
theorem test_round_index_256_refused : (Instr.addroundkey 256).wellFormed = false := by decide

theorem test_decode_gfmul : decode 0b00000000_10000000_00000010_00000001 = .ok (.gfmul 0x02 0x80) := by decide
theorem test_decode_gfmul_operands : decode 0x00835701 = .ok (.gfmul 0x57 0x83) := by decide
theorem test_decode_subbytes : decode 0b00000000_00000000_00000000_00010000 = .ok .subbytes := by decide
theorem test_decode_invsubbytes : decode 0x00000011 = .ok .invsubbytes := by decide
theorem test_decode_shiftrows : decode 0x00000012 = .ok .shiftrows := by decide
theorem test_decode_invshiftrows : decode 0x00000013 = .ok .invshiftrows := by decide
theorem test_decode_mixcolumns : decode 0x00000014 = .ok .mixcolumns := by decide
theorem test_decode_invmixcolumns : decode 0x00000015 = .ok .invmixcolumns := by decide
theorem test_decode_addroundkey : decode 0b00000000_00000000_00001010_00010110 = .ok (.addroundkey 10) := by decide
theorem test_decode_addroundkey_255 : decode 0x0000FF16 = .ok (.addroundkey 255) := by decide
theorem test_decode_expandkey : decode 0b00000000_00000000_00000000_00100000 = .ok .expandkey := by decide
theorem test_decode_encblk : decode 0b00000000_00000000_00000000_00110000 = .ok .encblk := by decide
theorem test_decode_decblk : decode 0x00000031 = .ok .decblk := by decide
theorem test_decode_pad : decode 0b00000000_00000000_00000000_01000000 = .ok .pad := by decide
theorem test_decode_unpad : decode 0x00000041 = .ok .unpad := by decide
theorem test_decode_ldblk : decode 0b00000000_00000000_00000000_01010000 = .ok .ldblk := by decide
theorem test_decode_stblk : decode 0x00000051 = .ok .stblk := by decide
theorem test_decode_streamenc : decode 0b00000000_00000000_00000000_01100000 = .ok .streamenc := by decide
theorem test_decode_streamdec : decode 0x00000061 = .ok .streamdec := by decide
theorem test_decode_rawdec : decode 0x00000062 = .ok .rawdec := by decide
theorem test_decode_clrerr : decode 0b00000000_00000000_00000000_11110000 = .ok .clrerr := by decide
theorem test_decode_sreset : decode 0x000000FF = .ok .sreset := by decide

/-- The illegal words of V60. -/
theorem test_illegal_words :
    ([0x00010016, 0x01000010, 0x01800201, 0x00000110, 0x00000000, 0x00000002, 0x00000017, 0x00000063, 0x000000F1,
      0x000000FE, 0xFFFFFFFF, 0x000001F0] : List Word).all (fun w => (decode w).toOption == none) = true := by decide

theorem test_table_word : decodeTableWord 32 0x00800201 = some (.gfmul 0x02 0x80) := by decide

/-- `withFetchWord` makes the very next step run the word. -/
theorem test_fetch_word :
    runs (step (State.reset.withFetchWord 32 0x00800201)) (fun t => t.GFRES == 0x1B && t.replies == [.written]) = true := by
  decide +kernel

/-! ### One step of each command -/

/-- V15. -/
theorem test_gfmul : runs (exec (.gfmul 0x57 0x83) State.reset) (fun t => t.GFRES == 0xC1) = true := by decide +kernel
/-- V15. -/
theorem test_gfmul_known : runs (exec (.gfmul 0x02 0x80) State.reset) (fun t => t.GFRES == 0x1B) = true := by
  decide +kernel
/-- V17. -/
theorem test_subbytes : runs (exec .subbytes (withS 0x004488cc115599dd2266aaee3377bbff))
    (fun t => t.S == blk 0x631bc44b82fceec19333ac28c3f5ea16) = true := by decide +kernel
/-- V17. -/
theorem test_invsubbytes : runs (exec .invsubbytes (withS 0x004488cc115599dd2266aaee3377bbff))
    (fun t => t.S == blk 0x52869727e3edf9c994d362996602fe7d) = true := by decide +kernel
/-- V18. -/
theorem test_shiftrows : runs (exec .shiftrows (withS 0x000102030405060708090a0b0c0d0e0f))
    (fun t => t.S == blk 0x00010203050607040a0b08090f0c0d0e) = true := by decide +kernel
/-- V18. -/
theorem test_invshiftrows : runs (exec .invshiftrows (withS 0x000102030405060708090a0b0c0d0e0f))
    (fun t => t.S == blk 0x00010203070405060a0b08090d0e0f0c) = true := by decide +kernel
/-- V19. -/
theorem test_mixcolumns : runs (exec .mixcolumns (withS 0x6309cdba536070cae0e1b7d08c0451e7))
    (fun t => t.S == blk 0x5f57f71d72f5beb964bc3bf91592291a) = true := by decide +kernel
/-- V19. -/
theorem test_invmixcolumns : runs (exec .invmixcolumns (withS 0x000102030405060708090a0b0c0d0e0f))
    (fun t => t.S == blk 0x28292a2b3c3d3e3f2021222334353637) = true := by decide +kernel
/-- R136, row by row. -/
theorem test_mix_rows :
    (List.range 4).map (mix 0) = [2, 3, 1, 1] ∧ (List.range 4).map (mix 1) = [1, 2, 3, 1] ∧
    (List.range 4).map (mix 2) = [1, 1, 2, 3] ∧ (List.range 4).map (mix 3) = [3, 1, 1, 2] := by decide
/-- R137, row by row. -/
theorem test_inv_mix_rows :
    (List.range 4).map (invMix 0) = [14, 11, 13, 9] ∧ (List.range 4).map (invMix 1) = [9, 14, 11, 13] ∧
    (List.range 4).map (invMix 2) = [13, 9, 14, 11] ∧ (List.range 4).map (invMix 3) = [11, 13, 9, 14] := by decide
/-- V19a. -/
theorem test_addroundkey : runs (exec (.addroundkey 10) { expanded with S := blk 0xffffffffffffffffffffffffffffffff })
    (fun t => t.S == blk 0xec1c0cb2ee6bf8d4e2b558cf80e8743a) = true := by decide +kernel
/-- V19a: no key before an index out of range. -/
theorem test_addroundkey_no_key : runs (exec (.addroundkey 200) State.reset) (fun t => t.ERR == 5) = true := by
  decide +kernel
/-- V20: `W[4]`, `W[43]`, and `STATUS` of R34. -/
theorem test_expandkey : runs (exec .expandkey keyed) (fun t => t.NR == 10 && t.W[4] == #v[0xd6, 0xaa, 0x74, 0xfd] &&
    t.W[43] == #v[0x4d, 0x2b, 0x30, 0xc5] && statusWord t == 0x00000006) = true := by decide +kernel
/-- V25. -/
theorem test_expandkey_size : runs (exec .expandkey { keyed with KLEN := 17 }) (fun t => t.ERR == 1 && !t.WVALID) = true := by
  decide +kernel
/-- R162, the known answer V1 in internal order. -/
theorem test_encblk : runs (exec .encblk { expanded with S := blk 0x004488cc115599dd2266aaee3377bbff })
    (fun t => t.S == blk 0x696ad870c47bcdb4e004b7c5d830805a) = true := by decide +kernel
/-- R163. -/
theorem test_decblk : runs (exec .decblk { expanded with S := blk 0x696ad870c47bcdb4e004b7c5d830805a })
    (fun t => t.S == blk 0x004488cc115599dd2266aaee3377bbff) = true := by decide +kernel
/-- R171. -/
theorem test_pad : runs (exec .pad (withBuf State.reset 3 0x616263))
    (fun t => t.LEN == 16 && firstBlock t == blk 0x6162630d0d0d0d0d0d0d0d0d0d0d0d0d) = true := by decide +kernel
/-- V40. -/
theorem test_pad_capacity : runs (exec .pad { State.reset with CAP := 16, LEN := 16 })
    (fun t => t.ERR == 7 && t.LEN == 16) = true := by decide +kernel
/-- V41. -/
theorem test_unpad : runs (exec .unpad (withBuf State.reset 16 0x41414141414141414141414141410202))
    (fun t => t.LEN == 14) = true := by decide +kernel
/-- V41. -/
theorem test_unpad_invalid : runs (exec .unpad (withBuf State.reset 16 0x0f101010101010101010101010101010))
    (fun t => statusWord t == 0x00000302 && t.LEN == 16) = true := by decide +kernel
/-- V45. -/
theorem test_ldblk :
    runs (exec .ldblk { withBuf State.reset 32 0x202122232425262728292a2b2c2d2e2f303132333435363738393a3b3c3d3e3f with
      POS := 16 }) (fun t => t.S == blk 0x3034383c3135393d32363a3e33373b3f && t.POS == 16) = true := by decide +kernel
/-- V45. -/
theorem test_ldblk_wrap : runs (exec .ldblk { State.reset with LEN := 32, POS := 0xFFFFFFF0 })
    (fun t => t.ERR == 6) = true := by decide +kernel
/-- R183. -/
theorem test_stblk : runs (exec .stblk { withS 0x696ad870c47bcdb4e004b7c5d830805a with LEN := 16 })
    (fun t => firstBlock t == blk 0x69c4e0d86a7b0430d8cdb78070b4c55a) = true := by decide +kernel
/-- V50: the empty input with progress events. -/
theorem test_streamenc : runs (exec .streamenc { keyed with PROGEN := true })
    (fun t => firstBlock t == blk 0x954f64f2e4e86e9eee82d20216684899 && t.LEN == 16 && t.POS == 16 && t.TOTAL == 16 &&
      t.EV == [.progress 16 16, .result 16 false] && statusWord t == 0x00000002) = true := by decide +kernel
/-- V51. -/
theorem test_streamdec : runs (exec .streamdec (withBuf keyed 16 0xb08b1f809a035064420d1d754022ab55))
    (fun t => firstBlock t == blk 0x6162630d0d0d0d0d0d0d0d0d0d0d0d0d && t.LEN == 3 && t.EV == [.result 3 false]) = true := by
  decide +kernel
/-- V53: the wrong key and the fallback. -/
theorem test_streamdec_fallback :
    runs (exec .streamdec { withBuf keyed 16 0xb1c64636d3c201d622ea58e3577d5479 with
      KEY := Vector.ofFn fun i => BitVec.ofNat 8 (15 - i.val) })
    (fun t => firstBlock t == blk 0x2878c1a8d4b0a8887056402f079eff96 && t.EV == [.result 16 true] &&
      statusWord t == 0x0000000A) = true := by decide +kernel
/-- R188. -/
theorem test_rawdec : runs (exec .rawdec (withBuf keyed 16 0x69c4e0d86a7b0430d8cdb78070b4c55a))
    (fun t => firstBlock t == blk 0x00112233445566778899aabbccddeeff && t.EV == [.result 16 false]) = true := by
  decide +kernel
/-- V54. -/
theorem test_rawdec_length : runs (exec .rawdec { keyed with LEN := 17 })
    (fun t => t.ERR == 2 && t.EV == [.fault 2]) = true := by decide +kernel
/-- R200. -/
theorem test_clrerr : runs (exec .clrerr { State.reset with ERR := 3, DONE := true })
    (fun t => statusWord t == 0x00000002) = true := by decide +kernel
/-- R201. -/
theorem test_sreset : runs (exec .sreset { expanded with LEN := 16, BUF := [(0, 0xEE)] })
    (fun t => statusWord t == 0 && t.LEN == 0 && t.KLEN == 0 && t.S[0] == 0 && t.BUF.read 0 == 0xEE) = true := by
  decide +kernel

/-! ### Host accesses (V61, V62) -/

theorem test_latched_word_dropped : runs (step { State.reset with ERR := 3, DONE := true, pending := [issue 0x00000010] })
    (fun t => statusWord t == 0x00000302 && t.S[0] == 0) = true := by decide +kernel
theorem test_illegal_word_faults : runs (step { State.reset with pending := [issue 0x00000099] })
    (fun t => statusWord t == 0x00000402) = true := by decide +kernel
theorem test_cap_read : runs (hostAccess (.read32 0x24) State.reset) (fun t => t.replies == [.word 0x2000]) = true := by
  decide +kernel
theorem test_len_write_above_cap : runs (hostAccess (.write32 0x10 8193) { State.reset with LEN := 8192 })
    (fun t => t.LEN == 8192 && t.replies == [.busError]) = true := by decide +kernel
theorem test_wb_read : runs (hostAccess (.read8 0x2AF) expanded) (fun t => t.replies == [.byte 0xC5]) = true := by
  decide +kernel
theorem test_wb_read_beyond : runs (hostAccess (.read8 0x2B0) expanded) (fun t => t.replies == [.busError]) = true := by
  decide +kernel
/-- V62 with the addresses of R70 (log entry 8): `BUF[8191]`, above `LEN`, is readable, and the next address is refused. -/
theorem test_buffer_edge :
    runs (hostAccess (.read8 0x11FFF) { State.reset with BUF := [(8191, 0xEE)] }) (fun t => t.replies == [.byte 0xEE]) = true ∧
    runs (hostAccess (.read8 0x12000) State.reset) (fun t => t.replies == [.busError]) = true := by
  decide +kernel

/-! ### Witnesses: for each statement with hypotheses, states and operands that meet them, clause by clause -/

/-- What `runs` says: the outcome is a next state, and that state has the property. -/
theorem runs_iff (o : Outcome) (p : State → Bool) : runs o p = true ↔ ∃ t, o = .next t ∧ p t = true := by
  cases o <;> simp [runs]

/-- The state with a key of `klen` bytes expanded and held. -/
def holding (klen : Byte) : State := complete (loadExpandedKey (accept { keyed with KLEN := klen }))

/-- A state with a latched error. -/
def latched : State := { State.reset with ERR := 3, DONE := true }

/-- A state with a command in execution, which no run reaches. -/
def busy : State := { State.reset with BUSY := true }

/-- A buffer of one block, all `0x10`: a valid trailer of 16 bytes. -/
def paddedBlock : State := withBuf State.reset 16 0x10101010101010101010101010101010

/-- A core of the smallest capacity. -/
def small : State := { keyed with CAP := 16 }

theorem witness_DecodeOfEncodeIsTheCommand :
    (Instr.gfmul 0xFF 0xFF).wellFormed = true ∧ (Instr.addroundkey 0).wellFormed = true ∧
    (Instr.addroundkey 255).wellFormed = true ∧ Instr.sreset.wellFormed = true := by decide

theorem witness_EncodeOfDecodeIsTheWord :
    decode 0x00FFFF01 = .ok (.gfmul 0xFF 0xFF) ∧ decode 0x0000FF16 = .ok (.addroundkey 255) := by decide

theorem witness_DecoderFollowsMatchAndMask :
    decode 0x00FFFF01 = .ok (.gfmul 0xFF 0xFF) ∧ decode 0x00010016 = .error .operandB := by decide

theorem witness_IllegalWordsAndTheirFault :
    decode 0x01000010 = .error .reservedZ ∧ decode 0x00000002 = .error .unknownOpcode ∧
    decode 0x00010016 = .error .operandB ∧ decode 0x00000110 = .error .operandA ∧
    State.reset.BUSY = false ∧ State.reset.ERR = 0 := by decide

theorem witness_StepExecutesTheDecodedCommand :
    (∃ s : State, s.pending = issue 0x00000010 :: [] ∧ s.BUSY = false ∧ s.ERR = 0 ∧ decode 0x00000010 = .ok .subbytes) ∧
    (∃ s : State, s.pending = issue 0x000000F0 :: [.read32 0x04] ∧ s.BUSY = false ∧ s.ERR = 3 ∧
      decode 0x000000F0 = .ok .clrerr) ∧
    (∃ s : State, s.pending = issue 0x000000FF :: [] ∧ s.BUSY = false ∧ s.ERR = 3 ∧ decode 0x000000FF = .ok .sreset) :=
  ⟨⟨{ State.reset with pending := [issue 0x00000010] }, by decide⟩,
   ⟨{ latched with pending := [issue 0x000000F0, .read32 0x04] }, by decide⟩,
   ⟨{ latched with pending := [issue 0x000000FF] }, by decide⟩⟩

theorem witness_LatchedErrorDropsCommands :
    ({ latched with pending := [issue 0x000001F0] } : State).pending = issue 0x000001F0 :: [] ∧ latched.BUSY = false ∧ latched.ERR ≠ 0 ∧
    (0x000001F0 : Word) ≠ 0x000000F0 ∧ (0x000001F0 : Word) ≠ 0x000000FF ∧
    runs (hostAccess (.write32 0x10 16) State.reset) (fun t => t.LEN == 16) = true ∧
    runs (hostAccess (.read32 0x10) State.reset) (fun t => t.replies == [.word 0]) = true := by decide +kernel

theorem witness_IdleCoreHoldsItsState : State.reset.pending = [] := by decide

theorem witness_LatchedCodeIsNeverOverwritten :
    runs (step { latched with pending := [issue 0x00000010] }) (fun t => t.ERR == 3) = true ∧
    runs (step { latched with pending := [issue 0x000000F0] }) (fun t => t.ERR == 0) = true := by decide +kernel

theorem witness_GmulLaws : (0x53 : Byte) ≠ 0 ∧ gmul 0x53 0xCA = 1 := by decide +kernel

theorem witness_SboxIsTheAffineMapOfTheInverse :
    ((0 : Byte) = 0 ∧ sbox 0 = 0x63) ∧ ((0x53 : Byte) ≠ 0 ∧ gmul 0x53 0xCA = 1 ∧ sbox 0x53 = 0xED) := by decide +kernel

theorem witness_RoundConstantValues : 1 ≤ 1 ∧ 1 < 10 ∧ 1 ≤ 9 ∧ 9 < 10 := by decide

theorem witness_AddroundkeyCommand :
    State.reset.WVALID = false ∧
    (expanded.WVALID = true ∧ expanded.NR.toNat < 11) ∧
    (expanded.WVALID = true ∧ 10 ≤ expanded.NR.toNat ∧ expanded.NR.toNat ≤ 14) ∧
    ((holding 32).WVALID = true ∧ 14 ≤ (holding 32).NR.toNat ∧ (holding 32).NR.toNat ≤ 14) := by decide +kernel

theorem witness_ExpandkeyCommand :
    (State.reset.KLEN.toNat ≠ 16 ∧ State.reset.KLEN.toNat ≠ 24 ∧ State.reset.KLEN.toNat ≠ 32) ∧
    (keyed.KLEN.toNat = 16 ∧ runs (exec .expandkey keyed) (fun t => t.NR.toNat == 10) = true) ∧
    (({ keyed with KLEN := 24 } : State).KLEN.toNat = 24 ∧
      runs (exec .expandkey { keyed with KLEN := 24 }) (fun t => t.NR.toNat == 12) = true) ∧
    (({ keyed with KLEN := 32 } : State).KLEN.toNat = 32 ∧
      runs (exec .expandkey { keyed with KLEN := 32 }) (fun t => t.NR.toNat == 14) = true) := by decide +kernel

theorem witness_BlockCommands :
    State.reset.WVALID = false ∧ ((holding 32).WVALID = true ∧ (holding 32).NR.toNat ≤ 14) := by decide +kernel

theorem witness_DecryptionUndoesEncryption : expanded.WVALID = true ∧ expanded.NR.toNat ≤ 14 := by decide +kernel

theorem witness_PrimitiveStepsEqualTheBlockCommands :
    ((holding 16).WVALID = true ∧ (holding 16).NR = 10 ∧ (holding 16).ERR = 0) ∧
    ((holding 24).WVALID = true ∧ (holding 24).NR = 12 ∧ (holding 24).ERR = 0) ∧
    ((holding 32).WVALID = true ∧ (holding 32).NR = 14 ∧ (holding 32).ERR = 0) := by decide +kernel

/-- The last length that fits, and the first that does not. -/
theorem witness_PadCommand :
    (∃ s : State, s.LEN.toNat = 8191 ∧ s.LEN.toNat + (16 - s.LEN.toNat % 16) ≤ s.CAP.toNat) ∧
    (∃ s : State, s.LEN.toNat = 8176 ∧ s.LEN.toNat + (16 - s.LEN.toNat % 16) ≤ s.CAP.toNat) ∧
    (∃ s : State, s.LEN.toNat = 8192 ∧ s.CAP.toNat < s.LEN.toNat + (16 - s.LEN.toNat % 16)) :=
  ⟨⟨{ State.reset with LEN := 8191 }, by decide⟩, ⟨{ State.reset with LEN := 8176 }, by decide⟩,
   ⟨{ State.reset with LEN := 8192 }, by decide⟩⟩

theorem witness_UnpadCommand :
    State.reset.LEN.toNat = 0 ∧
    (({ State.reset with LEN := 17 } : State).LEN.toNat % 16 ≠ 0 ∧ 17 ≤ State.reset.CAP.toNat) ∧
    (∃ s : State, s.LEN.toNat ≤ s.CAP.toNat ∧ s.LEN.toNat ≠ 0 ∧ s.LEN.toNat % 16 = 0 ∧
      (s.BUF.read (s.LEN.toNat - 1)).toNat < 1) ∧
    (∃ s : State, s.LEN.toNat ≤ s.CAP.toNat ∧ s.LEN.toNat ≠ 0 ∧ s.LEN.toNat % 16 = 0 ∧
      (s.BUF.read (s.LEN.toNat - 1)).toNat = 17) ∧
    (∃ s : State, s.LEN.toNat ≤ s.CAP.toNat ∧ s.LEN.toNat ≠ 0 ∧ s.LEN.toNat % 16 = 0 ∧
      (s.BUF.read (s.LEN.toNat - 1)).toNat = 16 ∧ s.BUF.read (s.LEN.toNat - 1 - 15) ≠ s.BUF.read (s.LEN.toNat - 1)) ∧
    (paddedBlock.LEN.toNat ≤ paddedBlock.CAP.toNat ∧
      runs (exec .unpad paddedBlock) (fun t => t.LEN == 0 && t.ERR == 0) = true) :=
  ⟨by decide, by decide,
   ⟨{ State.reset with LEN := 16 }, by decide +kernel⟩,
   ⟨withBuf State.reset 16 0x11, by decide +kernel⟩,
   ⟨withBuf State.reset 16 0x0f101010101010101010101010101010, by decide +kernel⟩,
   by decide +kernel⟩

/-- Two valid trailers: 16 bytes, and 1 byte. -/
theorem witness_validPad :
    validPad paddedBlock.BUF.read paddedBlock.LEN.toNat ∧
    validPad (withBuf State.reset 16 0x01).BUF.read (withBuf State.reset 16 0x01).LEN.toNat := by
  unfold validPad; decide +kernel

theorem witness_UnpadUndoesPad :
    (∃ s : State, s.LEN.toNat = 0 ∧ s.LEN.toNat + padLen s.LEN.toNat ≤ s.CAP.toNat) ∧
    (∃ s : State, s.LEN.toNat = 15 ∧ s.CAP = 16 ∧ s.LEN.toNat + padLen s.LEN.toNat ≤ s.CAP.toNat) :=
  ⟨⟨State.reset, by decide⟩, ⟨{ small with LEN := 15 }, by decide⟩⟩

/-- A misaligned position; a block that ends one byte above `LEN`; a position whose end wraps a 32-bit sum; and the last
block. -/
theorem witness_LdblkCommand :
    (8 % 16 ≠ 0) ∧
    (∃ s : State, s.POS.toNat % 16 = 0 ∧ s.LEN.toNat < s.POS.toNat + 16 ∧ s.LEN.toNat = 31 ∧ s.POS.toNat = 16) ∧
    (∃ s : State, s.POS = 0xFFFFFFF0 ∧ s.LEN.toNat < s.POS.toNat + 16) ∧
    (∃ s : State, s.POS.toNat % 16 = 0 ∧ s.POS.toNat + 16 ≤ s.LEN.toNat ∧ s.LEN.toNat ≤ s.CAP.toNat ∧ s.POS.toNat = 8176) :=
  ⟨by decide, ⟨{ State.reset with LEN := 31, POS := 16 }, by decide⟩,
   ⟨{ State.reset with LEN := 8192, POS := 0xFFFFFFF0 }, by decide⟩,
   ⟨{ State.reset with LEN := 8192, POS := 8176 }, by decide⟩⟩

theorem witness_StblkCommand :
    (∃ s : State, s.POS.toNat % 16 ≠ 0) ∧ (∃ s : State, s.LEN.toNat < s.POS.toNat + 16) ∧
    (∃ s : State, s.POS.toNat % 16 = 0 ∧ s.POS.toNat + 16 ≤ s.LEN.toNat ∧ s.LEN.toNat ≤ s.CAP.toNat ∧ s.POS.toNat = 0) :=
  ⟨⟨{ State.reset with POS := 8 }, by decide⟩, ⟨{ State.reset with LEN := 15 }, by decide⟩,
   ⟨{ State.reset with LEN := 16 }, by decide⟩⟩

theorem witness_LoadThenStoreKeepsTheBuffer :
    ∃ s : State, s.POS.toNat % 16 = 0 ∧ s.POS.toNat + 16 ≤ s.LEN.toNat ∧ s.LEN.toNat ≤ s.CAP.toNat :=
  ⟨{ small with LEN := 16 }, by decide⟩

theorem witness_StreamencCommand :
    (State.reset.KLEN.toNat ≠ 16 ∧ State.reset.KLEN.toNat ≠ 24 ∧ State.reset.KLEN.toNat ≠ 32) ∧
    (∃ s : State, s.KLEN.toNat = 32 ∧ s.LEN.toNat = 16 ∧ s.CAP.toNat < s.LEN.toNat + padLen s.LEN.toNat) ∧
    (∃ s : State, s.KLEN.toNat = 16 ∧ s.LEN.toNat = 15 ∧ s.LEN.toNat + padLen s.LEN.toNat ≤ s.CAP.toNat) ∧
    (∃ s : State, s.KLEN.toNat = 24 ∧ s.LEN.toNat = 0 ∧ s.LEN.toNat + padLen s.LEN.toNat ≤ s.CAP.toNat) :=
  ⟨by decide, ⟨{ small with KLEN := 32, LEN := 16 }, by decide⟩, ⟨{ small with LEN := 15 }, by decide⟩,
   ⟨{ small with KLEN := 24 }, by decide⟩⟩

/-- A partial block; the empty buffer, which takes the fallback; the full buffer; and a buffer that decrypts to a valid
trailer (V51). -/
theorem witness_StreamdecCommand :
    (State.reset.KLEN.toNat ≠ 16 ∧ State.reset.KLEN.toNat ≠ 24 ∧ State.reset.KLEN.toNat ≠ 32) ∧
    (∃ s : State, s.KLEN.toNat = 16 ∧ s.LEN.toNat = 1 ∧ s.LEN.toNat % 16 ≠ 0) ∧
    (∃ s : State, s.KLEN.toNat = 16 ∧ s.LEN = 0 ∧ s.LEN.toNat % 16 = 0 ∧ s.LEN.toNat ≤ s.CAP.toNat ∧
      runs (exec .streamdec s) (fun t => t.FALLBACK) = true) ∧
    (∃ s : State, s.KLEN.toNat = 32 ∧ s.LEN = s.CAP ∧ s.LEN.toNat % 16 = 0 ∧ s.LEN.toNat ≤ s.CAP.toNat) ∧
    (∃ s : State, s.KLEN.toNat = 16 ∧ s.LEN.toNat % 16 = 0 ∧ s.LEN.toNat ≤ s.CAP.toNat ∧
      runs (exec .streamdec s) (fun t => firstBlock t == blk 0x6162630d0d0d0d0d0d0d0d0d0d0d0d0d && t.LEN == 3 &&
        t.EV == [.result 3 false]) = true) :=
  ⟨by decide, ⟨{ small with LEN := 1 }, by decide⟩, ⟨small, by decide +kernel⟩,
   ⟨{ small with KLEN := 32, LEN := 16 }, by decide⟩,
   ⟨withBuf keyed 16 0xb08b1f809a035064420d1d754022ab55, by decide, by decide, by decide, test_streamdec⟩⟩

theorem witness_RawdecCommand :
    (State.reset.KLEN.toNat ≠ 16 ∧ State.reset.KLEN.toNat ≠ 24 ∧ State.reset.KLEN.toNat ≠ 32) ∧
    (∃ s : State, s.KLEN.toNat = 24 ∧ s.LEN.toNat = 17 ∧ s.LEN.toNat % 16 ≠ 0) ∧
    (∃ s : State, s.KLEN.toNat = 16 ∧ s.LEN = 0 ∧ s.LEN.toNat % 16 = 0 ∧ s.LEN.toNat ≤ s.CAP.toNat) ∧
    (∃ s : State, s.KLEN.toNat = 32 ∧ s.LEN ≠ 0 ∧ s.LEN = s.CAP ∧ s.LEN.toNat % 16 = 0 ∧ s.LEN.toNat ≤ s.CAP.toNat) :=
  ⟨by decide, ⟨{ keyed with KLEN := 24, LEN := 17 }, by decide⟩, ⟨small, by decide⟩,
   ⟨{ small with KLEN := 32, LEN := 16 }, by decide⟩⟩

theorem witness_StreamdecUndoesStreamenc :
    (∃ s : State, s.KLEN.toNat = 16 ∧ s.LEN.toNat = 0 ∧ s.LEN.toNat + padLen s.LEN.toNat ≤ s.CAP.toNat) ∧
    (∃ s : State, s.KLEN.toNat = 32 ∧ s.LEN.toNat = 8191 ∧ s.LEN.toNat + padLen s.LEN.toNat ≤ s.CAP.toNat) :=
  ⟨⟨keyed, by decide⟩, ⟨{ keyed with KLEN := 32, LEN := 8191 }, by decide⟩⟩

theorem witness_EventProtocol :
    runs (exec .streamdec { small with PROGEN := true })
      (fun t => t.ERR == 0 && t.EV == [.progress 0 0, .result 0 true]) = true ∧
    runs (exec .streamdec { small with LEN := 1 }) (fun t => t.EV == [.fault 2]) = true ∧
    runs (exec .sreset { small with EV := [.fault 2] }) (fun t => t.EV == []) = true ∧
    runs (exec .subbytes { small with EV := [.fault 2] }) (fun t => t.EV == [.fault 2]) = true ∧
    (decode 0x00000063 = .error .unknownOpcode ∧ runs (commandEntry 0x00000063 small) (fun t => t.ERR == 4) = true) ∧
    (latched.ERR ≠ 0 ∧ runs (commandEntry 0x00000060 latched) (fun t => t.EV == []) = true) := by decide +kernel

theorem witness_BlockByBlockEqualsRawdec :
    ∃ s : State, s.KLEN.toNat = 16 ∧ s.LEN.toNat % 16 = 0 ∧ s.LEN.toNat ≤ s.CAP.toNat ∧ s.BUSY = false ∧ s.ERR = 0 ∧
      s.LEN.toNat / 16 = 1 :=
  ⟨withBuf keyed 16 0x69c4e0d86a7b0430d8cdb78070b4c55a, by decide⟩

theorem witness_StreamCommandsDiscardTheKey :
    (Instr.rawdec.isStream = true ∧ expanded.ERR = 0 ∧ runs (exec .rawdec expanded) (fun t => t.ERR == 0) = true) ∧
    runs (exec .rawdec { expanded with KLEN := 0 }) (fun t => t.ERR == 1 && t.WVALID) = true := by decide +kernel

theorem witness_FirstCommandsAfterReset :
    validCap 16 ∧ validCap 0x80000000 ∧ State.powerUp 16 [(3, 0xEE)] = State.powerUp 16 [(3, 0xEE)] := by
  unfold validCap; decide

theorem witness_FaultsChangeNoDataState :
    runs (commandEntry 0x00000099 State.reset) (fun t => t.ERR == 4) = true ∧
    runs (commandEntry 0x00000020 State.reset) (fun t => t.ERR == 1) = true ∧
    runs (commandEntry 0x00000060 State.reset) (fun t => t.ERR == 1 && t.EV == [.fault 1]) = true ∧
    State.reset.ERR = 0 := by decide +kernel

theorem witness_CodesEachCommandRaises :
    runs (exec (.addroundkey 11) expanded) (fun t => t.ERR == 6) = true ∧ expanded.ERR = 0 ∧
    (6 : Nibble) ∈ raisable (.addroundkey 11) ∧ 10 < 11 ∧
    (7 : Nibble) ∈ raisable .streamenc ∧ (∀ r, Instr.streamenc = .addroundkey r → 10 < r ∨ (7 : Nibble) ≠ 6) :=
  ⟨by decide +kernel, by decide +kernel, by decide, by decide, by decide, (fun _ h => nomatch h)⟩

theorem witness_CommandsWriteOnlyTheirRegisters :
    runs (exec .encblk expanded) (fun t => t.W == expanded.W) = true ∧ Instr.encblk ≠ .sreset ∧
    Instr.encblk ≠ .expandkey ∧ Instr.encblk.isStream = false ∧ (∀ a b, Instr.encblk ≠ .gfmul a b) ∧
    Instr.encblk ≠ .pad ∧ Instr.encblk ≠ .unpad ∧ Instr.encblk ≠ .stblk :=
  ⟨by decide +kernel, by decide, by decide, by decide, (fun _ _ h => nomatch h), by decide, by decide, by decide⟩

theorem witness_CommonFlagsAfterACommand :
    runs (exec .streamdec small) (fun t => t.FALLBACK && t.DONE) = true ∧
    runs (exec .sreset expanded) (fun t => !t.DONE) = true := by decide +kernel

/-- At the length and just below it, of a command that keeps `LEN` and of one that raises it. -/
theorem witness_BytesOutsideTheBufferAreKept :
    runs (exec .pad (withBuf State.reset 3 0x616263)) (fun t => decide (3 ≤ 16 ∧ t.LEN.toNat ≤ 16)) = true ∧
    2 < (withBuf State.reset 3 0x616263).LEN.toNat ∧ Instr.pad ≠ .stblk ∧ Instr.pad.isStream = false := by decide +kernel

theorem witness_ConfigurationOnlySelectsEvents :
    runs (exec .streamdec small) (fun t => t.EV == [.result 0 true]) = true := by decide +kernel

theorem witness_RegisterReads : State.reset.BUSY = false := by decide

theorem witness_RegisterWrites :
    State.reset.BUSY = false ∧ (8192 : Word).toNat ≤ State.reset.CAP.toNat ∧ State.reset.CAP.toNat < (8193 : Word).toNat := by
  decide

theorem witness_WindowAccesses :
    State.reset.BUSY = false ∧ State.reset.CAP.toNat ≤ 2 ^ 31 ∧ 8191 < State.reset.CAP.toNat ∧ (31 : Fin 32).val = 31 ∧
    (15 : Fin 16).val = 15 := by decide

theorem witness_ExpandedKeyWindow :
    (expanded.BUSY = false ∧ expanded.WVALID = true ∧ (175 : Fin 240).val < 16 * (expanded.NR.toNat + 1)) ∧
    (16 * (expanded.NR.toNat + 1) ≤ (176 : Fin 240).val) ∧ State.reset.WVALID = false ∧
    ((holding 32).WVALID = true ∧ (239 : Fin 240).val < 16 * ((holding 32).NR.toNat + 1)) := by decide +kernel

/-- One access for each clause: another width, a misaligned register, a reserved slot, a read-only register, and the byte
addresses at the edges of the reserved ranges. -/
theorem witness_RefusedAccessesChangeNothing :
    (∃ bits addr, HostAccess.otherWidth 16 0x10000 = .otherWidth bits addr) ∧
    ((0x06 : Word).toNat % 4 ≠ 0 ∧ 0x28 ≤ (0x28 : Word).toNat) ∧
    ((0x24 : Word) ∈ ([0x04, 0x18, 0x1C, 0x20, 0x24] : List Word)) ∧
    ((0xFF : Word).toNat < 0x100) ∧ (0x130 ≤ (0x1FF : Word).toNat ∧ (0x1FF : Word).toNat < 0x200) ∧
    (0x2F0 ≤ (0x2F0 : Word).toNat ∧ (0x2F0 : Word).toNat < 0x10000) ∧
    (0x10000 + State.reset.CAP.toNat ≤ (0x12000 : Word).toNat) :=
  ⟨⟨16, 0x10000, rfl⟩, by decide⟩

theorem witness_AccessesWhileBusy :
    busy.BUSY = true ∧ issue 0x00000010 ≠ .read32 0x04 ∧ issue 0x00000010 ≠ .read32 0x14 ∧
    issue 0x00000010 ≠ .read32 0x18 := by decide

theorem witness_PowerUpMeetsTheInvariants : validCap 16 ∧ validBuf 16 [(3, 0xEE), (15, 0x01)] := by
  unfold validCap validBuf Memory.wf; decide

/-- A state that meets the invariants and holds a key, data, a latched error and a queue of accesses. -/
def working : State :=
  { expanded with BUF := [(0, 0xEE), (8191, 0x01)], LEN := 8192, TOTAL := 32, ERR := 7, pending := [issue 0x000000FF] }

theorem witness_StepKeepsTheInvariants :
    working.Inv ∧ runs (step working) (fun t => !t.WVALID && t.ERR == 0) = true :=
  ⟨⟨by unfold validCap; decide +kernel, by unfold validBuf Memory.wf; decide +kernel, by decide +kernel, by decide +kernel,
    by decide +kernel, by decide +kernel, by decide +kernel, by decide +kernel, by decide +kernel⟩, by decide +kernel⟩

theorem witness_CoreNeverStops : State.reset.Inv :=
  ⟨by unfold validCap; decide, by unfold validBuf Memory.wf; decide, by decide, by decide, by decide, by decide, by decide,
   by decide, by decide⟩

end Sys2Proof.Tests
end

/-! Which words the decoder refuses, layer by layer (operand checks, opcode map, whole word), and what the command entry
procedure does with one of them: spec/30_encoding.md rules R93 to R95. -/

namespace Sys2Proof

/-- A check that answers an error answers one when it applies, or when what comes after it does. -/
theorem exists_error_ite_iff (p : Prop) [Decidable p] (x : Illegal) (y : Except Illegal Instr) :
    (∃ e, (if p then .error x else y) = .error e) ↔ p ∨ ∃ e, y = .error e := by
  by_cases hp : p
  · simp [hp]
  · simp [hp]

theorem not_exists_ok_eq_error (i : Instr) : ¬ ∃ e : Illegal, Except.ok i = .error e := fun ⟨_, h⟩ => nomatch h

theorem noOperand_error_iff (a b : Byte) (i : Instr) : (∃ e, noOperand a b i = .error e) ↔ b ≠ 0 ∨ a ≠ 0 := by
  unfold noOperand
  rw [exists_error_ite_iff, exists_error_ite_iff, or_iff_left (not_exists_ok_eq_error i)]

theorem oneOperand_error_iff (a b : Byte) (i : Byte → Instr) : (∃ e, oneOperand a b i = .error e) ↔ b ≠ 0 := by
  unfold oneOperand
  rw [exists_error_ite_iff, or_iff_left (not_exists_ok_eq_error (i a))]

/-- The opcodes of R93, in the order of its table. -/
def knownOpcodes : List Byte :=
  [0x01, 0x10, 0x11, 0x12, 0x13, 0x14, 0x15, 0x16, 0x20, 0x30, 0x31, 0x40, 0x41, 0x50, 0x51, 0x60, 0x61, 0x62, 0xF0, 0xFF]

/-- The opcode map refuses three fields when the opcode has no row, or an operand its command does not take is not 0. -/
theorem decodeFields_error_iff (op a b : Byte) : (∃ e, decodeFields op a b = .error e) ↔
    op ∉ knownOpcodes ∨ (b ≠ 0 ∧ op ≠ 0x01) ∨ (a ≠ 0 ∧ op ≠ 0x01 ∧ op ≠ 0x16) := by
  unfold decodeFields
  split
  case h_1 => simp [knownOpcodes]
  case h_8 => rw [oneOperand_error_iff]; simp [knownOpcodes]
  case h_21 =>
    have hop : op ∉ knownOpcodes := by simp_all [knownOpcodes]
    exact iff_of_true ⟨_, rfl⟩ (.inl hop)
  all_goals (rw [noOperand_error_iff]; simp [knownOpcodes])

theorem decode_error_iff (w : Word) : (∃ e, decode w = .error e) ↔
    fieldZ w ≠ 0 ∨ ∃ e, decodeFields (fieldOp w) (fieldA w) (fieldB w) = .error e := by
  unfold decode
  exact exists_error_ite_iff _ _ _

namespace Machine

/-- R94, R95: an idle core with no latched error accepts an illegal word, and raises `Fault(4)`. -/
theorem commandEntry_illegal {w : Word} {e : Illegal} {s : State} (hw : decode w = .error e) (hbusy : s.BUSY = false)
    (herr : s.ERR = 0) : commandEntry w s = .next (s.faulted 4) := by
  have haccept : commandEntry w s = illegalCommand s := by simp [commandEntry, hw, hbusy, herr]
  exact haccept.trans (raised_primitive .illegalCommand s)

/-- Settles O5: the decoder's two tests, read field by field, and the raise of the command entry procedure. -/
theorem illegalWordsAndTheirFault : Obligations.IllegalWordsAndTheirFault := by
  unfold Obligations.IllegalWordsAndTheirFault
  constructor
  · intro w
    exact (decode_error_iff w).trans (or_congr_right (decodeFields_error_iff _ _ _))
  · intro w e s hw hbusy herr
    exact commandEntry_illegal hw hbusy herr

end Machine

end Sys2Proof


/-! The multiplier as a product of a field, and from it the construction of the S-box: spec/40_gf_and_tables.md rules R110
to R118. `gmul a` is a sum of doublings, so every map that keeps exclusive or and doubling passes through it
(`gmul_map`); that `gmul x` is such a map makes the product commutative and its inverses unique. -/

namespace Sys2Proof.Machine

/-- Settles O10: `GFMUL` completes in the state its meaning writes out. -/
theorem gfmulWritesTheProduct : Obligations.GfmulWritesTheProduct := by
  unfold Obligations.GfmulWritesTheProduct
  intro a b s
  exact ⟨complete { accept s with GFRES := gmul a b }, rfl, complete_GFRES _, rfl⟩

/-! ### The product keeps exclusive or and doubling -/

theorem xtime_xor (b c : Byte) : xtime (b ^^^ c) = xtime b ^^^ xtime c := by
  have hreduce (p q : Bool) : (if (p ^^ q) = true then (0x1B : Byte) else 0x00) =
      (if p then 0x1B else 0x00) ^^^ (if q then 0x1B else 0x00) := by
    cases p <;> cases q <;> rfl
  unfold xtime
  rw [BitVec.shiftLeft_xor_distrib, BitVec.getLsbD_xor, hreduce]
  ac_rfl

/-- One pass of the multiplier's loop keeps the exclusive or of two accumulators and two doublings. -/
theorem gmulStep_xor (a : Byte) (p q : Byte × Byte) (i : Nat) :
    gmulStep a (p.1 ^^^ q.1, p.2 ^^^ q.2) i =
      ((gmulStep a p i).1 ^^^ (gmulStep a q i).1, (gmulStep a p i).2 ^^^ (gmulStep a q i).2) := by
  unfold gmulStep
  rw [xtime_xor]
  split
  · refine Prod.ext ?_ rfl
    dsimp only
    ac_rfl
  · rfl

theorem gmul_xor (a b c : Byte) : gmul a (b ^^^ c) = gmul a b ^^^ gmul a c := by
  have hfold := List.foldl_hom₂ (List.range 8) (fun p q : Byte × Byte => (p.1 ^^^ q.1, p.2 ^^^ q.2))
    (gmulStep a) (gmulStep a) (gmulStep a) (0x00, b) (0x00, c) (fun p q i => (gmulStep_xor a p q i).symm)
  rw [BitVec.xor_self] at hfold
  exact congrArg Prod.fst hfold

/-- A map that keeps exclusive or and doubling can be applied before the product or after it. -/
theorem gmul_map {f : Byte → Byte} (hxor : ∀ b c, f (b ^^^ c) = f b ^^^ f c) (hxtime : ∀ b, f (xtime b) = xtime (f b))
    (a b : Byte) : gmul a (f b) = f (gmul a b) := by
  have hzero : f 0x00 = 0x00 := by simpa using hxor 0x00 0x00
  have hstep (p : Byte × Byte) (i : Nat) : gmulStep a (Prod.map f f p) i = Prod.map f f (gmulStep a p i) := by
    unfold gmulStep
    split
    · exact Prod.ext (hxor _ _).symm (hxtime _).symm
    · exact Prod.ext rfl (hxtime _).symm
  have hfold := List.foldl_hom (Prod.map f f) (l := List.range 8) (init := (0x00, b)) hstep
  rw [Prod.map_apply, hzero] at hfold
  exact congrArg Prod.fst hfold

theorem gmul_xtime (a b : Byte) : gmul a (xtime b) = xtime (gmul a b) := gmul_map xtime_xor (fun _ => rfl) a b

theorem gmul_left_comm (a b c : Byte) : gmul a (gmul b c) = gmul b (gmul a c) :=
  gmul_map (gmul_xor b) (gmul_xtime b) a c

/-! ### The inverse in the field -/

theorem gmul_one (a : Byte) : gmul a 1 = a := by
  revert a; decide +kernel

theorem gmul_comm (a b : Byte) : gmul a b = gmul b a := by
  simpa only [gmul_one] using gmul_left_comm a b 1

/-- A byte has at most one inverse. -/
theorem eq_of_gmul_eq_one {x v w : Byte} (hv : gmul x v = 1) (hw : gmul x w = 1) : v = w :=
  calc v = gmul v (gmul x w) := by rw [hw, gmul_one]
    _ = gmul w (gmul x v) := by rw [gmul_left_comm, gmul_comm v w, gmul_left_comm]
    _ = w := by rw [hv, gmul_one]

/-! ### The S-box -/

/-- The affine map of R118. -/
def affineMap (v : Byte) : Byte :=
  v ^^^ v.rotateLeft 1 ^^^ v.rotateLeft 2 ^^^ v.rotateLeft 3 ^^^ v.rotateLeft 4 ^^^ 0x63

/-- The inverse of the affine map: from `SBOX[x]` it reads back the inverse of `x` in the field. -/
def inverseAffineMap (y : Byte) : Byte := y.rotateLeft 1 ^^^ y.rotateLeft 3 ^^^ y.rotateLeft 6 ^^^ 0x05

theorem affineMap_inverseAffineMap : ∀ y : Byte, affineMap (inverseAffineMap y) = y := by decide +kernel

/-- The fact about the listing of R114, checked entry by entry: undoing the affine map leaves the inverse. -/
theorem gmul_inverseAffineMap_sbox : ∀ x : Byte, x ≠ 0 → gmul x (inverseAffineMap (sbox x)) = 1 := by decide +kernel

theorem inverseAffineMap_sbox_zero : inverseAffineMap (sbox 0) = 0 := by decide

theorem invSbox_sbox : ∀ x : Byte, invSbox (sbox x) = x := by decide +kernel

theorem sbox_invSbox : ∀ x : Byte, sbox (invSbox x) = x := by decide +kernel

/-- The inverse of R118 (0 for 0) is unique, so it is the byte that the affine map takes to `SBOX[x]`. -/
theorem eq_inverseAffineMap_sbox {x v : Byte} (hzero : x = 0 → v = 0) (hinv : x ≠ 0 → gmul x v = 1) :
    v = inverseAffineMap (sbox x) := by
  by_cases hx : x = 0
  · rw [hzero hx, hx, inverseAffineMap_sbox_zero]
  · exact eq_of_gmul_eq_one (hinv hx) (gmul_inverseAffineMap_sbox x hx)

/-- Settles O12: the inverse of `x` is read off `SBOX[x]`, and the affine map takes it back. -/
theorem sboxIsTheAffineMapOfTheInverse : Obligations.SboxIsTheAffineMapOfTheInverse := by
  unfold Obligations.SboxIsTheAffineMapOfTheInverse
  constructor
  · intro x v hzero hinv
    calc sbox x = affineMap (inverseAffineMap (sbox x)) := (affineMap_inverseAffineMap _).symm
      _ = affineMap v := by rw [← eq_inverseAffineMap_sbox hzero hinv]
  · intro x
    exact ⟨invSbox_sbox x, sbox_invSbox x⟩

end Sys2Proof.Machine


/-! The round transforms by row and column, and the seven commands that apply one to `S`: spec/41_round_transforms.md rules
R130 to R140. Row `r`, column `c` stands at lane `4r + c` (R20), so each lane law of the model is first read at such a
lane. -/

namespace Sys2Proof.Machine

/-! ### Each transform at row `r`, column `c` -/

theorem lane_div_four (r : Nat) (c : Fin 4) : (4 * r + c.val) / 4 = r := by omega

theorem lane_mod_four (r : Nat) (c : Fin 4) : (4 * r + c.val) % 4 = c.val := by omega

/-- R132: the byte that comes to column `c` of row `r` was in column `(c + r) mod 4`. -/
theorem shiftRows_lane (s : Block) (r c : Fin 4) :
    (shiftRows s)[4 * r.val + c.val] = s[4 * r.val + (c.val + r.val) % 4] := by
  simp only [getElem_shiftRows, lane_div_four, lane_mod_four]

/-- Rotating right by `r` takes column `(c + r) mod 4` back to column `c`. -/
theorem column_rotate_back (r c : Fin 4) : ((c.val + r.val) % 4 + (4 - r.val)) % 4 = c.val := by omega

/-- R133: the byte that was in column `c` of row `r` comes to column `(c + r) mod 4`. -/
theorem invShiftRows_lane (s : Block) (r c : Fin 4) :
    (invShiftRows s)[4 * r.val + (c.val + r.val) % 4] = s[4 * r.val + c.val] := by
  have hrow : (4 * r.val + (c.val + r.val) % 4) / 4 = r.val := by omega
  have hcol : (4 * r.val + (c.val + r.val) % 4) % 4 = (c.val + r.val) % 4 := by omega
  simp only [getElem_invShiftRows, hrow, hcol, column_rotate_back]

/-- R134, R135: row `i` of the matrix and column `c` of the old block give the byte at row `i`, column `c`. -/
theorem mixBy_lane (m : Nat → Nat → Byte) (s : Block) (i c : Fin 4) :
    (mixBy m s)[4 * i.val + c.val] = mixByte m s i.val c := by
  simp only [getElem_mixBy, lane_div_four, lane_mod_four]

/-- R138: the key byte for row `k`, column `c` is byte `k` of word `4r + c`. -/
theorem roundKey_lane (w : KeyMemory) {r : Nat} (hr : r ≤ 14) (k c : Fin 4) :
    (roundKey w r)[4 * k.val + c.val] = w[4 * r + c.val][k] := by
  rw [getElem_roundKey]
  simp only [lane_div_four, lane_mod_four]
  exact wByte_eq w _ _ (by omega) k.isLt

/-! ### What a transform writes: `S`, the common flags, and for a column transform the scratch register -/

theorem complete_setS_frame (b : Block) (s : State) : complete (setS b (accept s)) =
    { s with S := b, BUSY := false, DONE := true, FALLBACK := false } := rfl

theorem complete_setSThroughT_frame (b : Block) (s : State) : complete (setSThroughT b (accept s)) =
    { s with S := b, T := b, BUSY := false, DONE := true, FALLBACK := false } := rfl

/-! ### `ADDROUNDKEY`, case by case -/

theorem exec_addroundkey_noKey {r : Nat} {s : State} (hw : s.WVALID = false) :
    exec (.addroundkey r) s = .next (s.faulted 5) :=
  (if_pos hw).trans (raised_primitive .noKey s)

theorem exec_addroundkey_range {r : Nat} {s : State} (hw : s.WVALID = true) (hr : s.NR.toNat < r) :
    exec (.addroundkey r) s = .next (s.faulted 6) :=
  calc exec (.addroundkey r) s
    _ = raised .primitive .range (accept s) := by simp [exec, execAddroundkey, hw, hr]
    _ = .next (s.faulted 6) := raised_primitive .range s

theorem exec_addroundkey_adds {r : Nat} {s : State} (hw : s.WVALID = true) (hr : r ≤ s.NR.toNat) (hn : s.NR.toNat ≤ 14) :
    exec (.addroundkey r) s = .next (complete (setS (addRoundKey s.S s.W r) (accept s))) :=
  calc exec (.addroundkey r) s
    _ = guardW r (completed (setS (addRoundKey s.S s.W r) (accept s))) := by
      simp [exec, execAddroundkey, hw, Nat.not_lt.mpr hr]
    _ = completed (setS (addRoundKey s.S s.W r) (accept s)) := guardW_pass _ (hr.trans hn)

/-- Settles O17: the two raises in their order, then the key addition read by row and column. -/
theorem addroundkeyCommand : Obligations.AddroundkeyCommand := by
  unfold Obligations.AddroundkeyCommand
  intro r s
  refine ⟨exec_addroundkey_noKey, exec_addroundkey_range, fun hw hr hn => ?_⟩
  refine ⟨_, exec_addroundkey_adds hw hr hn, fun k c => ?_, complete_setS_frame _ s⟩
  simp only [complete_S, setS_S, getElem_addRoundKey, roundKey_lane s.W (hr.trans hn)]

/-! ### The commands without an operand: each completes with `S` transformed -/

/-- Settles O14: both commands act on each lane by a table. -/
theorem substitutionCommands : Obligations.SubstitutionCommands := by
  unfold Obligations.SubstitutionCommands
  intro s
  constructor
  · exact ⟨complete (setS (subBytes s.S) (accept s)), rfl, fun j => getElem_subBytes s.S j j.isLt, complete_setS_frame _ s⟩
  · exact ⟨complete (setS (invSubBytes s.S) (accept s)), rfl, fun j => getElem_invSubBytes s.S j j.isLt, complete_setS_frame _ s⟩

/-- Settles O15: both commands rotate the columns of each row. -/
theorem rowCommands : Obligations.RowCommands := by
  unfold Obligations.RowCommands
  intro s
  constructor
  · exact ⟨complete (setS (shiftRows s.S) (accept s)), rfl, shiftRows_lane s.S, complete_setS_frame _ s⟩
  · exact ⟨complete (setS (invShiftRows s.S) (accept s)), rfl, invShiftRows_lane s.S, complete_setS_frame _ s⟩

/-- Settles O16: both commands are the product by a matrix, whose entries the statement writes as the model does. -/
theorem columnCommands : Obligations.ColumnCommands := by
  unfold Obligations.ColumnCommands
  intro fwd inv s
  constructor
  · exact ⟨complete (setSThroughT (mixColumns s.S) (accept s)), rfl, mixBy_lane mix s.S, complete_setSThroughT_frame _ s⟩
  · exact ⟨complete (setSThroughT (invMixColumns s.S) (accept s)), rfl, mixBy_lane invMix s.S, complete_setSThroughT_frame _ s⟩

end Sys2Proof.Machine

/-! The key schedule read byte by byte from `W`, and `EXPANDKEY`: spec/42_key_schedule.md rules R150 to R154. The words the
schedule lists (`wordAt (expandKey ..)`) obey R151 and R152; `loadExpandedKey` puts them into `W`, where the statement
reads them. -/

namespace Sys2Proof.Machine

/-! ### The word operations of R153, byte by byte -/

theorem getElem_xorWord (u v : KeyWord) (k : Nat) (hk : k < 4) : (xorWord u v)[k] = u[k] ^^^ v[k] := by
  simp [xorWord]

theorem getElem_subWord (u : KeyWord) (k : Nat) (hk : k < 4) : (subWord u)[k] = sbox u[k] := by
  simp [subWord]

theorem getElem_rotWord (u : KeyWord) (k : Nat) (hk : k < 4) : (rotWord u)[k] = u[(k + 1) % 4] := by
  match k, hk with
  | 0, _ | 1, _ | 2, _ | 3, _ => rfl

theorem getElem_rconWord (r k : Nat) (hk : k < 4) : (rconWord r)[k] = if k = 0 then rcon r else 0 := by
  match k, hk with
  | 0, _ | 1, _ | 2, _ | 3, _ => rfl

theorem keyByte_eq_getD (key : Vector Byte 32) (i : Nat) : keyByte key i = key.getD i 0 := by
  simp [keyByte, Vector.getD, Array.getD]

/-! ### The words of the schedule -/

/-- R151: the schedule begins with the words of the key. -/
theorem wordAt_expandKey_key (key : Vector Byte 32) (klen : Byte) {i : Nat} (hi : i < nkOf klen) :
    wordAt (expandKey key klen) i = Vector.ofFn fun k : Fin 4 => keyByte key (4 * i + k.val) := by
  have hkey : i < (keyWords key (nkOf klen)).length := by rwa [length_keyWords]
  exact (wordAt_extendWords_lt _ _ _ i hkey).trans (wordAt_keyWords key _ i hi)

/-- R152: the recurrence, for every word of the schedule after those of the key. -/
theorem wordAt_expandKey_recurrence (key : Vector Byte 32) {klen : Byte} (hk : 0 < nkOf klen) {i : Nat}
    (hi : nkOf klen ≤ i) (hlast : i < 4 * (nrOf klen + 1)) :
    wordAt (expandKey key klen) i = xorWord (wordAt (expandKey key klen) (i - nkOf klen))
      (if i % nkOf klen = 0 then
        xorWord (subWord (rotWord (wordAt (expandKey key klen) (i - 1)))) (rconWord (i / nkOf klen))
      else if 6 < nkOf klen ∧ i % nkOf klen = 4 then subWord (wordAt (expandKey key klen) (i - 1))
      else wordAt (expandKey key klen) (i - 1)) := by
  have hlen : (keyWords key (nkOf klen)).length = nkOf klen := length_keyWords key _
  exact wordAt_extendWords _ _ _ hk hlen.ge i (hlen.trans_le hi) (by omega)

/-! ### The bytes of `W` once the schedule is loaded -/

theorem nkOf_pos {klen : Byte} (h : keyLenValid klen = true) : 0 < nkOf klen := by
  unfold nkOf
  rcases keyLenValid_iff.mp h with h | h | h <;> omega

/-- The schedule of a valid key fits the 60 words of `W` (R24). -/
theorem four_mul_nrOf_le {klen : Byte} (h : keyLenValid klen = true) : 4 * (nrOf klen + 1) ≤ 60 := by
  unfold nrOf nkOf
  rcases keyLenValid_iff.mp h with h | h | h <;> omega

section
variable {s : State} (hvalid : keyLenValid s.KLEN = true)
include hvalid

theorem wByte_loadExpandedKey {i k : Nat} (hi : i < 4 * (nrOf s.KLEN + 1)) (hk : k < 4) :
    wByte (loadExpandedKey s).W i k = (wordAt (expandKey s.KEY s.KLEN) i)[k] := by
  have hword : i < (expandKey s.KEY s.KLEN).length := by rwa [length_expandKey]
  rw [loadExpandedKey_W, wByte_loadWords _ _ i k hword (hi.trans_le (four_mul_nrOf_le hvalid)) hk]

theorem wByte_loadExpandedKey_key {i k : Nat} (hi : i < nkOf s.KLEN) (hk : k < 4) :
    wByte (loadExpandedKey s).W i k = s.KEY.getD (4 * i + k) 0 := by
  have hlast : i < 4 * (nrOf s.KLEN + 1) := by unfold nrOf; omega
  rw [wByte_loadExpandedKey hvalid hlast hk, ← keyByte_eq_getD]
  simp [wordAt_expandKey_key s.KEY s.KLEN hi]

theorem wByte_loadExpandedKey_recurrence {i k : Nat} (hi : nkOf s.KLEN ≤ i) (hlast : i < 4 * (nrOf s.KLEN + 1))
    (hk : k < 4) :
    wByte (loadExpandedKey s).W i k = wByte (loadExpandedKey s).W (i - nkOf s.KLEN) k ^^^
      (if i % nkOf s.KLEN = 0 then
        sbox (wByte (loadExpandedKey s).W (i - 1) ((k + 1) % 4)) ^^^ (if k = 0 then rcon (i / nkOf s.KLEN) else 0)
      else if 6 < nkOf s.KLEN ∧ i % nkOf s.KLEN = 4 then sbox (wByte (loadExpandedKey s).W (i - 1) k)
      else wByte (loadExpandedKey s).W (i - 1) k) := by
  have hbyte {j m : Nat} (hj : j ≤ i) (hm : m < 4) :
      wByte (loadExpandedKey s).W j m = (wordAt (expandKey s.KEY s.KLEN) j)[m] :=
    wByte_loadExpandedKey hvalid (hj.trans_lt hlast) hm
  have hnext : (k + 1) % 4 < 4 := Nat.mod_lt _ (by decide)
  rw [hbyte le_rfl hk, hbyte (Nat.sub_le i _) hk, hbyte (Nat.sub_le i 1) hk, hbyte (Nat.sub_le i 1) hnext,
    wordAt_expandKey_recurrence s.KEY (nkOf_pos hvalid) hi hlast, getElem_xorWord]
  congr 1
  split
  · rw [getElem_xorWord, getElem_subWord, getElem_rotWord, getElem_rconWord]
  · split
    · exact getElem_subWord _ k hk
    · rfl

end

/-! ### The command -/

theorem exec_expandkey_invalid {s : State} (hk : keyLenValid s.KLEN = false) : exec .expandkey s = .next (s.faulted 1) :=
  calc exec .expandkey s
    _ = raised .primitive .invalidKeySize (accept s) := by simp [exec, execExpandkey, hk]
    _ = .next (s.faulted 1) := raised_primitive .invalidKeySize s

theorem exec_expandkey_valid {s : State} (hk : keyLenValid s.KLEN = true) :
    exec .expandkey s = .next (complete (loadExpandedKey (accept s))) :=
  if_pos hk

theorem complete_loadExpandedKey_frame (s : State) : complete (loadExpandedKey (accept s)) =
    { s with W := loadWords s.W (expandKey s.KEY s.KLEN), NR := BitVec.ofNat 4 (nrOf s.KLEN), WVALID := true,
             BUSY := false, DONE := true, FALLBACK := false } := by
  rw [loadExpandedKey]; rfl

/-- Settles O19: the raise, then the loaded schedule read word by word. -/
theorem expandkeyCommand : Obligations.ExpandkeyCommand := by
  unfold Obligations.ExpandkeyCommand
  intro s
  refine ⟨fun h16 h24 h32 => exec_expandkey_invalid (keyLenValid_false.mpr ⟨h16, h24, h32⟩), fun hlen => ?_⟩
  have hvalid : keyLenValid (accept s).KLEN = true := keyLenValid_iff.mpr hlen
  have hround : (complete (loadExpandedKey (accept s))).NR.toNat = nrOf s.KLEN := toNat_nrOf hvalid
  refine ⟨_, exec_expandkey_valid hvalid, hround, rfl, ?key, ?recurrence, ?above, complete_loadExpandedKey_frame s⟩
  case key => exact fun i hi k hk => wByte_loadExpandedKey_key hvalid hi hk
  case recurrence =>
    intro i hi hlast k hk
    rw [hround] at hlast
    exact wByte_loadExpandedKey_recurrence hvalid hi hlast hk
  case above =>
    intro i hi h
    have hlast : (expandKey s.KEY s.KLEN).length ≤ i := by rwa [length_expandKey, ← hround]
    exact getElem_loadWords_ge s.W _ i hlast h

end Sys2Proof.Machine

/-! The block functions as loops over the round numbers, and the two commands that apply one to `S`:
spec/43_block_cipher.md rules R160 to R163. -/

namespace Sys2Proof.Machine

/-! ### The recursive rounds are the loops -/

/-- R160: the full rounds of encryption run upwards from round 1. -/
theorem encryptRounds_eq_foldl (w : KeyMemory) (s : Block) (n : Nat) :
    encryptRounds w s n = (List.range' 1 n).foldl (fun x r => encryptRound w r x) (addRoundKey s w 0) := by
  induction n with
  | zero => rfl
  | succ n ih =>
    rw [encryptRounds, ih, List.range'_1_concat, List.foldl_append, Nat.add_comm 1 n]
    rfl

/-- R161: `n` full rounds of decryption run downwards from round `nr - 1`, so they end with round `nr - n`. -/
theorem decryptRounds_eq_foldl (w : KeyMemory) (s : Block) {nr n : Nat} (hn : n ≤ nr) :
    decryptRounds w nr s n =
      (List.range' (nr - n) n).reverse.foldl (fun x r => decryptRound w r x) (addRoundKey s w nr) := by
  induction n with
  | zero => rfl
  | succ n ih =>
    have hnext : nr - (n + 1) + 1 = nr - n := by omega
    rw [decryptRounds, ih (Nat.le_of_succ_le hn), List.range'_succ, hnext, List.reverse_cons, List.foldl_append]
    rfl

/-- All the full rounds of decryption end with round 1; with `nr = 0` there is none. -/
theorem decryptRounds_pred_eq_foldl (w : KeyMemory) (s : Block) (nr : Nat) :
    decryptRounds w nr s (nr - 1) =
      (List.range' 1 (nr - 1)).reverse.foldl (fun x r => decryptRound w r x) (addRoundKey s w nr) := by
  cases nr with
  | zero => rfl
  | succ m =>
    have hlast : m + 1 - m = 1 := Nat.add_sub_cancel_left m 1
    rw [Nat.add_sub_cancel, decryptRounds_eq_foldl w s (Nat.le_succ m), hlast]

/-- Settles O20: the rounds before the final one are the loops, upwards and downwards. -/
theorem blockFunctionsAreTheRoundLoops : Obligations.BlockFunctionsAreTheRoundLoops := by
  unfold Obligations.BlockFunctionsAreTheRoundLoops
  intro s w nr
  constructor
  · rw [encryptState, encryptRounds_eq_foldl]; rfl
  · rw [decryptState, decryptRounds_pred_eq_foldl]; rfl

/-! ### `ENCBLK` and `DECBLK` -/

/-- The command that runs the block core in a direction. -/
def blockCommand : Direction → Instr
  | .encrypt => .encblk
  | .decrypt => .decblk

theorem exec_blockCommand_noKey (d : Direction) {s : State} (hw : s.WVALID = false) :
    exec (blockCommand d) s = .next (s.faulted 5) := by
  cases d with
  | encrypt => exact (if_pos hw).trans (raised_primitive .noKey s)
  | decrypt => exact (if_pos hw).trans (raised_primitive .noKey s)

theorem exec_blockCommand_crypts (d : Direction) {s : State} (hw : s.WVALID = true) (hn : s.NR.toNat ≤ 14) :
    exec (blockCommand d) s = .next (complete (cryptS d (accept s))) := by
  have hkey : ¬ s.WVALID = false := by simp [hw]
  cases d with
  | encrypt => exact (if_neg hkey).trans (guardW_pass _ hn)
  | decrypt => exact (if_neg hkey).trans (guardW_pass _ hn)

theorem complete_cryptS_frame (d : Direction) (s : State) : complete (cryptS d (accept s)) =
    { s with S := cryptState d s.S s.W s.NR.toNat, T := scratchAfter d s.T s.S s.W s.NR.toNat,
             BUSY := false, DONE := true, FALLBACK := false } := rfl

/-- What R162 and R163 say of a command under a held key, in either direction. -/
theorem blockCommand_held_key (d : Direction) {s : State} (hw : s.WVALID = true) (hn : s.NR.toNat ≤ 14) :
    ∃ t, exec (blockCommand d) s = .next t ∧ t.S = cryptState d s.S s.W s.NR.toNat ∧
      t = { s with S := t.S, T := t.T, BUSY := false, DONE := true, FALLBACK := false } :=
  ⟨_, exec_blockCommand_crypts d hw hn, cryptS_S d (accept s), complete_cryptS_frame d s⟩

/-- Settles O21: the raise and the completion of the block command, in each direction. -/
theorem blockCommands : Obligations.BlockCommands := by
  unfold Obligations.BlockCommands
  intro s
  constructor
  · intro hw
    exact ⟨exec_blockCommand_noKey .encrypt hw, exec_blockCommand_noKey .decrypt hw⟩
  · intro hw hn
    exact ⟨blockCommand_held_key .encrypt hw hn, blockCommand_held_key .decrypt hw hn⟩

end Sys2Proof.Machine

/-! `PAD` and `UNPAD` at the level of `exec`: what each check decides, and the exact state a completed command leaves:
spec/44_padding.md rules R170 to R173. -/

namespace Sys2Proof.Machine

/-! ### `PAD` -/

theorem exec_pad_fits {s : State} (hfits : padFits s = true) :
    exec .pad s = .next (complete (padBuffer (accept s))) :=
  if_pos hfits

theorem exec_pad_overflows {s : State} (hfits : padFits s = false) : exec .pad s = .next (s.faulted 7) :=
  calc exec .pad s
    _ = raised .primitive .capacity (accept s) := if_neg (Bool.eq_false_iff.mp hfits)
    _ = .next (s.faulted 7) := raised_primitive .capacity s

theorem complete_padBuffer_frame (s : State) : complete (padBuffer (accept s)) =
    { s with BUF := (padBuffer s).BUF, LEN := (padBuffer s).LEN,
             BUSY := false, DONE := true, FALLBACK := false } := rfl

/-- R171: from the old length up to the new one the buffer reads as the pad byte. -/
theorem padBuffer_read_pad {s : State} {a : Nat} (hlow : s.LEN.toNat ≤ a)
    (hhigh : a < s.LEN.toNat + padLen s.LEN.toNat) : (padBuffer s).BUF.read a = BitVec.ofNat 8 (padLen s.LEN.toNat) := by
  rw [padBuffer_read, if_pos ⟨hlow, hhigh⟩]

/-- R171: the data below the old length and the bytes from the new one on are kept. -/
theorem padBuffer_read_outside {s : State} {a : Nat}
    (hout : a < s.LEN.toNat ∨ s.LEN.toNat + padLen s.LEN.toNat ≤ a) : (padBuffer s).BUF.read a = s.BUF.read a := by
  rw [padBuffer_read, if_neg (by omega)]

/-- A padded buffer that fits has a length below `2^32`, since `CAP` is a 32-bit word. -/
theorem padBuffer_LEN_of_padFits {s : State} (hfits : padFits s = true) :
    (padBuffer s).LEN.toNat = s.LEN.toNat + padLen s.LEN.toNat :=
  padBuffer_LEN_toNat s ((padFits_iff.mp hfits).trans_lt s.CAP.isLt)

/-- Settles O24: the new length does not wrap, so the bytes below, inside and above the pad are those of the write. -/
theorem padCommand : Obligations.PadCommand := by
  unfold Obligations.PadCommand
  intro s
  constructor
  · intro hroom
    have hfits : padFits s = true := padFits_iff.mpr hroom
    have hlen : (complete (padBuffer (accept s))).LEN.toNat = s.LEN.toNat + padLen s.LEN.toNat :=
      padBuffer_LEN_of_padFits hfits
    refine ⟨_, exec_pad_fits hfits, hlen, ?pad, ?outside, complete_padBuffer_frame s⟩
    case pad =>
      intro a hlow hhigh
      exact padBuffer_read_pad hlow (hlen ▸ hhigh)
    case outside =>
      intro a hout
      exact padBuffer_read_outside (hlen ▸ hout)
  · intro hroom
    exact exec_pad_overflows (decide_eq_false (Nat.not_le.mpr hroom))

/-! ### `UNPAD` -/

theorem exec_unpad_raises {s : State} {e : ErrorCode} (hlen : s.LEN.toNat ≤ s.CAP.toNat)
    (hcheck : unpadCheck s.BUF s.LEN.toNat = some e) : exec .unpad s = .next (s.faulted e.code) := by
  have hguard : exec .unpad s = raised .primitive e (accept s) := by
    rw [exec, execUnpad, guardBuf_pass _ hlen, hcheck]
  exact hguard.trans (raised_primitive e s)

theorem exec_unpad_passes {s : State} (hlen : s.LEN.toNat ≤ s.CAP.toNat)
    (hcheck : unpadCheck s.BUF s.LEN.toNat = none) :
    exec .unpad s = .next (complete (unpadBuffer (accept s))) := by
  rw [exec, execUnpad, guardBuf_pass _ hlen, hcheck, completed]

theorem complete_unpadBuffer_frame (s : State) : complete (unpadBuffer (accept s)) =
    { s with LEN := (unpadBuffer s).LEN, BUSY := false, DONE := true, FALLBACK := false } := rfl

/-- R172: the two ways a whole number of blocks fails to end in a pad trailer: its last byte is no pad length, or one of
the bytes it counts differs from it. -/
theorem not_validPad_of_bad_trailer {byte : Nat → Byte} {l : Nat}
    (hbad : (byte (l - 1)).toNat < 1 ∨ 16 < (byte (l - 1)).toNat ∨
      ∃ i < (byte (l - 1)).toNat, byte (l - 1 - i) ≠ byte (l - 1)) : ¬ validPad byte l := by
  rintro ⟨-, -, hpos, hle, hall⟩
  rcases hbad with hzero | hbig | ⟨i, hi, hne⟩
  · exact absurd hpos (Nat.not_le.mpr hzero)
  · exact absurd hle (Nat.not_le.mpr hbig)
  · exact hne (hall i hi)

/-- Settles O25: each clause is one answer of the unpad check, and only a passed check lowers the length. -/
theorem unpadCommand : Obligations.UnpadCommand := by
  unfold Obligations.UnpadCommand
  intro s hcap
  refine ⟨?length, ?trailer, ?valid⟩
  case length =>
    intro hlen
    exact exec_unpad_raises hcap (unpadCheck_length hlen)
  case trailer =>
    intro hne hwhole hbad
    exact exec_unpad_raises hcap (unpadCheck_padding hne hwhole (not_validPad_of_bad_trailer hbad))
  case valid =>
    intro hpad
    exact ⟨_, exec_unpad_passes hcap (unpadCheck_none.mpr hpad), unpadBuffer_LEN_toNat s, complete_unpadBuffer_frame s⟩

end Sys2Proof.Machine

/-! The stream driver at the level of `exec`: the block commands `LDBLK` and `STBLK`, then `STREAMENC`, `STREAMDEC` and
`RAWDEC`, each with its raises in the order of its checks and the exact state it completes in: spec/45_stream_driver.md
rules R180 to R190. What the block loop does is said by the laws of `streamBlocks`; here it meets the state a command
hands to the loop (`accept`, or `accept` and the pad) and what the command does after it. -/

namespace Sys2Proof.Machine

/-! ### `LDBLK` and `STBLK` -/

/-- R62: lane `4r + c` of the internal order and byte `r + 4c` of the external order are each other's image. -/
theorem tau_lane (r c : Fin 4) : tau (4 * r.val + c.val) = r.val + 4 * c.val := by unfold tau; omega

theorem tau_byte (r c : Fin 4) : tau (r.val + 4 * c.val) = 4 * r.val + c.val := by unfold tau; omega

/-- R180: the byte at row `r`, column `c` of the state is byte `r + 4c` of the block. -/
theorem toInternal_lane (b : Block) (r c : Fin 4) : (toInternal b)[4 * r.val + c.val] = b[r.val + 4 * c.val] := by
  simp only [getElem_toInternal, tau_lane]

/-- R181: byte `r + 4c` of the block is the byte at row `r`, column `c` of the state. -/
theorem toExternal_byte (b : Block) (r c : Fin 4) : (toExternal b)[r.val + 4 * c.val] = b[4 * r.val + c.val] := by
  simp only [getElem_toExternal, tau_byte]

theorem blockInRange_false {s : State} :
    blockInRange s = false ↔ s.POS.toNat % 16 ≠ 0 ∨ s.LEN.toNat < s.POS.toNat + 16 := by
  rw [← Bool.not_eq_true, blockInRange_iff]; omega

theorem exec_ldblk_outOfRange {s : State} (hr : blockInRange s = false) : exec .ldblk s = .next (s.faulted 6) :=
  (if_neg (Bool.eq_false_iff.mp hr)).trans (raised_primitive .range s)

theorem exec_stblk_outOfRange {s : State} (hr : blockInRange s = false) : exec .stblk s = .next (s.faulted 6) :=
  (if_neg (Bool.eq_false_iff.mp hr)).trans (raised_primitive .range s)

/-- A block inside the valid buffer is inside the capacity. -/
theorem block_end_le_CAP {s : State} (hr : blockInRange s = true) (hcap : s.LEN.toNat ≤ s.CAP.toNat) :
    s.POS.toNat + 16 ≤ s.CAP.toNat :=
  (blockInRange_iff.mp hr).2.trans hcap

theorem exec_ldblk_loads {s : State} (hr : blockInRange s = true) (hcap : s.LEN.toNat ≤ s.CAP.toNat) :
    exec .ldblk s = .next (complete (loadBlock (accept s))) :=
  (if_pos hr).trans (guardBuf_pass _ (block_end_le_CAP hr hcap))

theorem exec_stblk_stores {s : State} (hr : blockInRange s = true) (hcap : s.LEN.toNat ≤ s.CAP.toNat) :
    exec .stblk s = .next (complete (storeBlock (accept s))) :=
  (if_pos hr).trans (guardBuf_pass _ (block_end_le_CAP hr hcap))

theorem complete_loadBlock_frame (s : State) : complete (loadBlock (accept s)) =
    { s with S := (complete (loadBlock (accept s))).S, BUSY := false, DONE := true, FALLBACK := false } := by
  apply State.ext <;> simp

theorem complete_storeBlock_frame (s : State) : complete (storeBlock (accept s)) =
    { s with BUF := (complete (storeBlock (accept s))).BUF, BUSY := false, DONE := true, FALLBACK := false } := by
  apply State.ext <;> simp

theorem loadBlock_lane (s : State) (r c : Fin 4) :
    (loadBlock s).S[4 * r.val + c.val] = s.BUF.read (s.POS.toNat + (r.val + 4 * c.val)) := by
  simp only [loadBlock_S, toInternal_lane, Memory.getElem_readBlock]

theorem storeBlock_read_byte (s : State) (r c : Fin 4) :
    (storeBlock s).BUF.read (s.POS.toNat + (r.val + 4 * c.val)) = s.S[4 * r.val + c.val] := by
  rw [storeBlock_BUF, Memory.read_writeBlock, dif_pos (by omega)]
  simp only [Nat.add_sub_cancel_left, toExternal_byte]

theorem storeBlock_read_outside {s : State} {a : Nat} (ha : a < s.POS.toNat ∨ s.POS.toNat + 16 ≤ a) :
    (storeBlock s).BUF.read a = s.BUF.read a := by
  rw [storeBlock_BUF, Memory.read_writeBlock, dif_neg (by omega)]

/-- Settles O27: the range test decides between the raise and the transposed load. -/
theorem ldblkCommand : Obligations.LdblkCommand := by
  unfold Obligations.LdblkCommand
  intro s
  constructor
  · intro hout
    exact exec_ldblk_outOfRange (blockInRange_false.mpr hout)
  · intro haligned hbelow hcap
    exact ⟨_, exec_ldblk_loads (blockInRange_iff.mpr ⟨haligned, hbelow⟩) hcap, loadBlock_lane (accept s),
      complete_loadBlock_frame s⟩

/-- Settles O28: the range test decides between the raise and the transposed store of 16 bytes. -/
theorem stblkCommand : Obligations.StblkCommand := by
  unfold Obligations.StblkCommand
  intro s
  constructor
  · intro hout
    exact exec_stblk_outOfRange (blockInRange_false.mpr hout)
  · intro haligned hbelow hcap
    refine ⟨_, exec_stblk_stores (blockInRange_iff.mpr ⟨haligned, hbelow⟩) hcap, ?_, ?_,
      complete_storeBlock_frame s⟩
    all_goals rw [complete_BUF]
    · exact storeBlock_read_byte (accept s)
    · exact fun a ha => storeBlock_read_outside (s := accept s) ha

/-! ### The raises of the stream-class commands -/

/-- R186 to R188: every stream-class command checks the key length first. -/
theorem exec_stream_invalidKey {i : Instr} {s : State} (hi : i.isStream = true) (hk : keyLenValid s.KLEN = false) :
    exec i s = .next (s.streamFaulted 1) := by
  have hkey : ¬ keyLenValid s.KLEN = true := Bool.eq_false_iff.mp hk
  cases i with
  | streamenc => exact (if_neg hkey).trans (raised_stream .invalidKeySize s)
  | streamdec => exact (if_neg hkey).trans (raised_stream .invalidKeySize s)
  | rawdec => exact (if_neg hkey).trans (raised_stream .invalidKeySize s)
  | _ => cases hi

theorem exec_streamenc_overflows {s : State} (hk : keyLenValid s.KLEN = true) (hfits : padFits s = false) :
    exec .streamenc s = .next (s.streamFaulted 7) :=
  (if_pos hk).trans ((if_neg (Bool.eq_false_iff.mp hfits)).trans (raised_stream .capacity s))

theorem exec_streamdec_partialBlock {s : State} (hk : keyLenValid s.KLEN = true) (hw : wholeBlocks s = false) :
    exec .streamdec s = .next (s.streamFaulted 2) :=
  (if_pos hk).trans ((if_neg (Bool.eq_false_iff.mp hw)).trans (raised_stream .invalidLength s))

theorem exec_rawdec_partialBlock {s : State} (hk : keyLenValid s.KLEN = true) (hw : wholeBlocks s = false) :
    exec .rawdec s = .next (s.streamFaulted 2) :=
  (if_pos hk).trans ((if_neg (Bool.eq_false_iff.mp hw)).trans (raised_stream .invalidLength s))

theorem wholeBlocks_false {s : State} : wholeBlocks s = false ↔ s.LEN.toNat % 16 ≠ 0 := by
  rw [← Bool.not_eq_true, wholeBlocks_iff]

/-! ### The completions of the stream-class commands -/

theorem exec_streamenc_encrypts {s : State} (hk : keyLenValid s.KLEN = true) (hfits : padFits s = true) :
    exec .streamenc s = .next (complete (emitResult (streamBlocks .encrypt (padBuffer (accept s))))) :=
  (if_pos hk).trans (if_pos hfits)

theorem exec_streamdec_decrypts {s : State} (hk : keyLenValid s.KLEN = true) (hw : wholeBlocks s = true)
    (hcap : s.LEN.toNat ≤ s.CAP.toNat) : exec .streamdec s =
      .next (complete (emitResult (unpadOrFallback (streamBlocks .decrypt (accept s))))) :=
  ((if_pos hk).trans (if_pos hw)).trans (guardBuf_pass _ hcap)

theorem exec_rawdec_decrypts {s : State} (hk : keyLenValid s.KLEN = true) (hw : wholeBlocks s = true)
    (hcap : s.LEN.toNat ≤ s.CAP.toNat) :
    exec .rawdec s = .next (complete (emitResult (streamBlocks .decrypt (accept s)))) :=
  ((if_pos hk).trans (if_pos hw)).trans (guardBuf_pass _ hcap)

/-! ### The loop on the buffer a command hands to it -/

section
variable {d : Direction} {s : State}

/-- R185: below the length, the loop started on an accepted command leaves the block core's output. -/
theorem streamBlocks_accept_read_below (hk : keyLenValid s.KLEN = true) (hw : s.LEN.toNat % 16 = 0) {a : Nat}
    (ha : a < s.LEN.toNat) : (streamBlocks d (accept s)).BUF.read a = cryptedByte d s s.BUF.read a :=
  (streamBlocks_read d (accept s) hk hw a).trans (if_pos ha)

theorem streamBlocks_accept_read_above (hk : keyLenValid s.KLEN = true) (hw : s.LEN.toNat % 16 = 0) {a : Nat}
    (ha : s.LEN.toNat ≤ a) : (streamBlocks d (accept s)).BUF.read a = s.BUF.read a :=
  (streamBlocks_read d (accept s) hk hw a).trans (if_neg (Nat.not_lt.mpr ha))

/-- R185: a byte of the output depends on the bytes of its own block only, all of which lie below a length of whole
blocks that the byte lies below. -/
theorem cryptedByte_congr {f g : Nat → Byte} {l a : Nat} (hfg : ∀ b < l, f b = g b) (hl : l % 16 = 0) (ha : a < l) :
    cryptedByte d s f a = cryptedByte d s g a := by
  have hblock : blockOf f (a / 16) = blockOf g (a / 16) := by
    apply Vector.ext
    intro i hi
    simpa only [blockOf, Vector.getElem_ofFn] using hfg (16 * (a / 16) + i) (by omega)
  simp only [cryptedByte, hblock]

/-- R171: below the new length the padded buffer holds the data, then the pad. -/
theorem padBuffer_read_below {a : Nat} (ha : a < s.LEN.toNat + padLen s.LEN.toNat) :
    (padBuffer s).BUF.read a = paddedByte s a := by
  unfold paddedByte
  split
  case isTrue hdata => exact padBuffer_read_outside (.inl hdata)
  case isFalse hpad => exact padBuffer_read_pad (Nat.not_lt.mp hpad) ha

/-- The padded length is a whole number of blocks. -/
theorem padBuffer_LEN_whole (hfits : padFits s = true) : (padBuffer s).LEN.toNat % 16 = 0 := by
  rw [padBuffer_LEN_of_padFits hfits]; exact padLen_whole _

theorem padBuffer_LEN_ne_zero (hfits : padFits s = true) : (padBuffer s).LEN ≠ 0 := by
  intro hzero
  have hlen := padBuffer_LEN_of_padFits hfits
  have hpos := padLen_pos s.LEN.toNat
  simp only [hzero, BitVec.ofNat_eq_ofNat, BitVec.toNat_ofNat, Nat.zero_mod] at hlen
  omega

/-- R186: below the new length, the loop on the padded buffer leaves the block core's output on data and pad. -/
theorem streamBlocks_padBuffer_read_below (hk : keyLenValid s.KLEN = true) (hfits : padFits s = true) {a : Nat}
    (ha : a < s.LEN.toNat + padLen s.LEN.toNat) :
    (streamBlocks d (padBuffer (accept s))).BUF.read a = cryptedByte d s (paddedByte s) a := by
  have hlen : (padBuffer (accept s)).LEN.toNat = s.LEN.toNat + padLen s.LEN.toNat := padBuffer_LEN_of_padFits hfits
  calc (streamBlocks d (padBuffer (accept s))).BUF.read a
    _ = cryptedByte d (padBuffer (accept s)) (padBuffer (accept s)).BUF.read a :=
      (streamBlocks_read d (padBuffer (accept s)) hk (padBuffer_LEN_whole (s := accept s) hfits) a).trans
        (if_pos (hlen ▸ ha))
    _ = cryptedByte d s (padBuffer (accept s)).BUF.read a := rfl
    _ = cryptedByte d s (paddedByte s) a :=
      cryptedByte_congr (fun b hb => padBuffer_read_below (s := accept s) hb) (padLen_whole _) ha

/-- R186: from the new length on, neither the pad nor the loop writes a byte. -/
theorem streamBlocks_padBuffer_read_above (hk : keyLenValid s.KLEN = true) (hfits : padFits s = true) {a : Nat}
    (ha : s.LEN.toNat + padLen s.LEN.toNat ≤ a) :
    (streamBlocks d (padBuffer (accept s))).BUF.read a = s.BUF.read a := by
  have hlen : (padBuffer (accept s)).LEN.toNat = s.LEN.toNat + padLen s.LEN.toNat := padBuffer_LEN_of_padFits hfits
  calc (streamBlocks d (padBuffer (accept s))).BUF.read a
    _ = (padBuffer (accept s)).BUF.read a :=
      (streamBlocks_read d (padBuffer (accept s)) hk (padBuffer_LEN_whole (s := accept s) hfits) a).trans
        (if_neg (by omega))
    _ = s.BUF.read a := padBuffer_read_outside (s := accept s) (.inr ha)

end

/-! ### `STREAMENC` -/

theorem complete_streamenc_frame (s : State) {t : State}
    (ht : t = complete (emitResult (streamBlocks .encrypt (padBuffer (accept s))))) :
    t = { s with
          S := t.S, T := t.T, W := t.W, BUF := t.BUF, LEN := t.LEN, POS := t.POS, TOTAL := t.TOTAL, EV := t.EV,
          NR := 0, WVALID := false, BUSY := false, DONE := true, FALLBACK := false } := by
  subst ht
  apply State.ext <;> simp

/-- Settles O30: the two raises in their order, then the block loop over the padded buffer. -/
theorem streamencCommand : Obligations.StreamencCommand := by
  unfold Obligations.StreamencCommand
  intro s
  constructor
  · intro h16 h24 h32
    exact exec_stream_invalidKey rfl (keyLenValid_false.mpr ⟨h16, h24, h32⟩)
  · intro hvalid
    have hk : keyLenValid s.KLEN = true := keyLenValid_iff.mpr hvalid
    constructor
    · intro hroom
      exact exec_streamenc_overflows hk (decide_eq_false (Nat.not_le.mpr hroom))
    · intro hroom
      have hfits : padFits s = true := padFits_iff.mpr hroom
      have hwhole : (padBuffer (accept s)).LEN.toNat % 16 = 0 := padBuffer_LEN_whole (s := accept s) hfits
      have hlen : (padBuffer (accept s)).LEN.toNat = s.LEN.toNat + padLen s.LEN.toNat :=
        padBuffer_LEN_of_padFits (s := accept s) hfits
      refine ⟨_, exec_streamenc_encrypts hk hfits, ?_, ?_, ?_, ?_, ?_, ?_, ?_, complete_streamenc_frame s rfl⟩
      all_goals simp only [complete_LEN, complete_POS, complete_TOTAL, complete_BUF, complete_S, complete_EV,
        emitResult_LEN, emitResult_POS, emitResult_TOTAL, emitResult_BUF, emitResult_S, emitResult_EV, streamBlocks_LEN]
      · exact hlen
      · exact streamBlocks_POS .encrypt _ hwhole
      · exact streamBlocks_TOTAL .encrypt _
      · exact fun a ha => streamBlocks_padBuffer_read_below hk hfits (hlen ▸ ha)
      · exact fun a ha => streamBlocks_padBuffer_read_above hk hfits (hlen ▸ ha)
      · exact streamBlocks_S .encrypt _ hk hwhole (padBuffer_LEN_ne_zero (s := accept s) hfits)
      · simp only [streamBlocks_EV .encrypt _ hwhole, streamBlocks_FALLBACK, emittedProgress, padBuffer_EV,
          padBuffer_PROGEN, padBuffer_FALLBACK, accept_EV, accept_PROGEN, accept_FALLBACK]

/-! ### `RAWDEC` -/

theorem complete_rawdec_frame (s : State) {t : State}
    (ht : t = complete (emitResult (streamBlocks .decrypt (accept s)))) :
    t = { s with
          S := t.S, T := t.T, W := t.W, BUF := t.BUF, POS := t.POS, TOTAL := t.TOTAL, EV := t.EV,
          NR := 0, WVALID := false, BUSY := false, DONE := true, FALLBACK := false } := by
  subst ht
  apply State.ext <;> simp

/-- Settles O32: the two raises in their order, then the block loop over the buffer as it stands. -/
theorem rawdecCommand : Obligations.RawdecCommand := by
  unfold Obligations.RawdecCommand
  intro s
  constructor
  · intro h16 h24 h32
    exact exec_stream_invalidKey rfl (keyLenValid_false.mpr ⟨h16, h24, h32⟩)
  · intro hvalid
    have hk : keyLenValid s.KLEN = true := keyLenValid_iff.mpr hvalid
    constructor
    · intro hpartial
      exact exec_rawdec_partialBlock hk (wholeBlocks_false.mpr hpartial)
    · intro hwhole hcap
      refine ⟨_, exec_rawdec_decrypts hk (wholeBlocks_iff.mpr hwhole) hcap, ?_, ?_, ?_, ?_, ?_, ?_, ?_,
        complete_rawdec_frame s rfl⟩
      all_goals simp only [complete_POS, complete_TOTAL, complete_BUF, complete_S, complete_EV,
        emitResult_POS, emitResult_TOTAL, emitResult_BUF, emitResult_S, emitResult_EV]
      · exact streamBlocks_POS .decrypt (accept s) hwhole
      · exact streamBlocks_TOTAL .decrypt (accept s)
      · exact fun a ha => streamBlocks_accept_read_below hk hwhole ha
      · exact fun a ha => streamBlocks_accept_read_above hk hwhole ha
      · exact streamBlocks_S_empty .decrypt (accept s)
      · exact streamBlocks_S .decrypt (accept s) hk hwhole
      · rw [streamBlocks_EV .decrypt (accept s) hwhole, streamBlocks_LEN, streamBlocks_FALLBACK]; rfl

/-! ### `STREAMDEC` -/

theorem unpadOrFallback_of_validPad {s : State} (h : validPad s.BUF.read s.LEN.toNat) :
    unpadOrFallback s = unpadBuffer s := by
  rw [unpadOrFallback, unpadCheck_none.mpr h]

/-- R190: any failure of the unpad check takes the fallback. -/
theorem unpadOrFallback_of_not_validPad {s : State} (h : ¬ validPad s.BUF.read s.LEN.toNat) :
    unpadOrFallback s = setFallback s := by
  obtain ⟨e, he⟩ := Option.ne_none_iff_exists'.mp (mt unpadCheck_none.mp h)
  rw [unpadOrFallback, he]

theorem complete_streamdec_frame (s : State) {t : State}
    (ht : t = complete (emitResult (unpadOrFallback (streamBlocks .decrypt (accept s))))) :
    t = { s with
          S := t.S, T := t.T, W := t.W, BUF := t.BUF, LEN := t.LEN, POS := t.POS, TOTAL := t.TOTAL, EV := t.EV,
          NR := 0, WVALID := false, BUSY := false, DONE := true, FALLBACK := t.FALLBACK } := by
  subst ht
  apply State.ext <;> simp

/-- Settles O31: the two raises in their order, then the block loop, and after it the trailer check on its output. -/
theorem streamdecCommand : Obligations.StreamdecCommand := by
  unfold Obligations.StreamdecCommand
  intro s
  constructor
  · intro h16 h24 h32
    exact exec_stream_invalidKey rfl (keyLenValid_false.mpr ⟨h16, h24, h32⟩)
  · intro hvalid
    have hk : keyLenValid s.KLEN = true := keyLenValid_iff.mpr hvalid
    constructor
    · intro hpartial
      exact exec_streamdec_partialBlock hk (wholeBlocks_false.mpr hpartial)
    · intro hwhole hcap
      have hlen : (streamBlocks .decrypt (accept s)).LEN = s.LEN := streamBlocks_LEN .decrypt (accept s)
      refine ⟨_, exec_streamdec_decrypts hk (wholeBlocks_iff.mpr hwhole) hcap, ?_, ?_, ?_, ?_, ?_, ?_, ?_, ?_, ?_,
        complete_streamdec_frame s rfl⟩
      all_goals simp only [complete_LEN, complete_POS, complete_TOTAL, complete_BUF, complete_S, complete_EV,
        complete_FALLBACK, emitResult_LEN, emitResult_POS, emitResult_TOTAL, emitResult_BUF, emitResult_S,
        emitResult_EV, emitResult_FALLBACK, unpadOrFallback_POS, unpadOrFallback_TOTAL, unpadOrFallback_BUF, unpadOrFallback_S,
        unpadOrFallback_EV]
      · exact streamBlocks_POS .decrypt (accept s) hwhole
      · exact streamBlocks_TOTAL .decrypt (accept s)
      · exact fun a ha => streamBlocks_accept_read_below hk hwhole ha
      · exact fun a ha => streamBlocks_accept_read_above hk hwhole ha
      · intro hpad
        rw [← hlen] at hpad ⊢
        rw [unpadOrFallback_of_validPad hpad]
        exact ⟨(unpadBuffer_FALLBACK _).trans (streamBlocks_FALLBACK .decrypt (accept s)), unpadBuffer_LEN_toNat _⟩
      · intro hpad
        rw [← hlen] at hpad ⊢
        rw [unpadOrFallback_of_not_validPad hpad]
        exact ⟨setFallback_FALLBACK _, setFallback_LEN _⟩
      · exact streamBlocks_S_empty .decrypt (accept s)
      · exact streamBlocks_S .decrypt (accept s) hk hwhole
      · rw [streamBlocks_EV .decrypt (accept s) hwhole]; rfl

end Sys2Proof.Machine


/-! The system commands: spec/46_system.md rule R200. -/

namespace Sys2Proof.Machine

theorem exec_clrerr (s : State) : exec .clrerr s = .next (complete (returnFromFault (accept s))) := rfl

/-- R200: of the return from a fault, acceptance and completion around it, `ERR` and the common flags are all that is
left. -/
theorem complete_returnFromFault_frame (s : State) : complete (returnFromFault (accept s)) =
    { s with ERR := 0, BUSY := false, DONE := true, FALLBACK := false } := by
  apply State.ext <;> simp

/-- Settles O37: the command has one case, the completion of the return from a fault. -/
theorem clrerrCommand : Obligations.ClrerrCommand := by
  unfold Obligations.ClrerrCommand
  intro s
  rw [exec_clrerr, complete_returnFromFault_frame]

end Sys2Proof.Machine


/-! A raise is precise: spec/60_exceptions.md rule R214. A command either leaves `ERR` as it was or 0, or it raised, and
then its whole effect is the raise. -/

namespace Sys2Proof.Machine

theorem Effect.ERR_kept_or_raised {i : Instr} {s t : State} (h : Effect s i t) :
    (t.ERR = s.ERR ∨ t.ERR = 0) ∨
      (i.isStream = false ∧ ∃ code, t = s.faulted code) ∨ (i.isStream = true ∧ ∃ code, t = s.streamFaulted code) := by
  cases h with
  | addroundkeyNoKey | addroundkeyRange | expandkeySize | encblkNoKey | decblkNoKey | padCapacity | unpadInvalid
  | ldblkRange | stblkRange => exact .inr (.inl ⟨rfl, _, rfl⟩)
  | streamencSize | streamencCapacity | streamdecSize | streamdecLength | rawdecSize | rawdecLength =>
    exact .inr (.inr ⟨rfl, _, rfl⟩)
  | clrerr | sreset => exact .inl (.inr rfl)
  | _ => exact .inl (.inl (by simp))

/-- Settles O41: an illegal word raises before anything else, and a command that leaves a new error latched had one of
the raises for its effect. -/
theorem faultsChangeNoDataState : Obligations.FaultsChangeNoDataState := by
  unfold Obligations.FaultsChangeNoDataState
  intro w s t hs hentry ht
  rcases commandEntry_cases hentry with rfl | ⟨-, -, ⟨⟨e, hw⟩, rfl⟩ | ⟨i, hw, hexec⟩⟩
  · exact absurd hs ht
  · apply State.ext <;> simp [hw]
  · rcases (exec_effect hexec).ERR_kept_or_raised with (hkept | hzero) | ⟨hi, code, rfl⟩ | ⟨hi, code, rfl⟩
    · exact absurd (hkept.trans hs) ht
    · exact absurd hzero ht
    · apply State.ext <;> simp [hw, hi]
    · apply State.ext <;> simp [hw, hi]

end Sys2Proof.Machine

/-! Decoder and encoder as inverses of each other, and the decoder against the `match` and `mask` columns of the opcode
table: spec/30_encoding.md rules R91 to R94. -/

namespace Sys2Proof

/-- Settles O1: each word is one row of the opcode map. -/
theorem sampleWordsDecode : Obligations.SampleWordsDecode := by
  unfold Obligations.SampleWordsDecode
  decide

/-! ### Decode and encode -/

/-- The opcode map reads back a command from its own opcode and operands. -/
theorem decodeFields_of_wellFormed {i : Instr} (hi : i.wellFormed = true) :
    decodeFields (opcode i) (operandA i) (operandB i) = .ok i := by
  cases i with
  | addroundkey r =>
    have hr : r < 256 := of_decide_eq_true hi
    simp [decodeFields, oneOperand, opcode, operandA, operandB, Nat.mod_eq_of_lt hr]
  | _ => rfl

theorem decode_encode {i : Instr} (hi : i.wellFormed = true) : decode (encode i) = .ok i :=
  (decode_packWord _ _ _).trans (decodeFields_of_wellFormed hi)

/-- Settles O2: the fields of a packed word are the opcode and the operands it was packed from. -/
theorem decodeOfEncodeIsTheCommand : Obligations.DecodeOfEncodeIsTheCommand := by
  unfold Obligations.DecodeOfEncodeIsTheCommand
  exact fun _ => decode_encode

theorem decode_ok_iff {w : Word} {i : Instr} :
    decode w = .ok i ↔ fieldZ w = 0 ∧ decodeFields (fieldOp w) (fieldA w) (fieldB w) = .ok i := by
  unfold decode
  split
  case isTrue hz => exact ⟨nofun, fun h => absurd h.1 hz⟩
  case isFalse hz => simp [not_not.mp hz]

theorem encode_of_decode {w : Word} {i : Instr} (h : decode w = .ok i) : encode i = w := by
  obtain ⟨hz, hfields⟩ := decode_ok_iff.mp h
  obtain ⟨-, hop, ha, hb⟩ := decodeFields_ok hfields
  rw [encode, hop, ha, hb, packWord_fields w hz]

theorem wellFormed_of_decode {w : Word} {i : Instr} (h : decode w = .ok i) : i.wellFormed = true :=
  (decodeFields_ok (decode_ok_iff.mp h).2).1

/-- Settles O3: a word that decodes has `Z = 0` and the fields of its command. -/
theorem encodeOfDecodeIsTheWord : Obligations.EncodeOfDecodeIsTheWord := by
  unfold Obligations.EncodeOfDecodeIsTheWord
  exact fun _ _ h => ⟨wellFormed_of_decode h, encode_of_decode h⟩

/-! ### The opcode table

A row of a command without operands has the full mask, so it selects its pattern only. The two other rows are read field
by field. -/

/-- The row of `GFMUL`: `A` and `B` are free. -/
def gfmulRow : OpcodeRow := ⟨"GFMUL", 0x00000001, 0xFF0000FF⟩

/-- The row of `ADDROUNDKEY`: `A` is free. -/
def addroundkeyRow : OpcodeRow := ⟨"ADDROUNDKEY", 0x00000016, 0xFFFF00FF⟩

theorem opcodeTable_mask_cases :
    ∀ row ∈ opcodeTable, row.mask = 0xFFFFFFFF ∨ row = gfmulRow ∨ row = addroundkeyRow := by decide

theorem opcodeTable_pattern_decodes :
    ∀ row ∈ opcodeTable, (decode row.pattern).toOption.map Instr.mnemonic = some row.mnemonic := by decide

theorem opcodeTable_mnemonic_injective :
    ∀ row ∈ opcodeTable, ∀ row' ∈ opcodeTable, row.mnemonic = row'.mnemonic → row = row' := by decide

theorem selects_iff {row : OpcodeRow} {w : Word} : row.selects w = true ↔ w &&& row.mask = row.pattern := beq_iff_eq

theorem selects_of_full_mask {row : OpcodeRow} {w : Word} (hmask : row.mask = 0xFFFFFFFF) :
    row.selects w = true ↔ w = row.pattern := by
  have hall : (0xFFFFFFFF : Word) = BitVec.allOnes 32 := by decide
  rw [selects_iff, hmask, hall, BitVec.and_allOnes]

theorem eq_iff_fields {w v : Word} (hv : fieldZ v = 0) :
    w = v ↔ fieldZ w = 0 ∧ fieldOp w = fieldOp v ∧ fieldA w = fieldA v ∧ fieldB w = fieldB v := by
  constructor
  · rintro rfl
    exact ⟨hv, rfl, rfl, rfl⟩
  · rintro ⟨hz, hop, ha, hb⟩
    rw [← packWord_fields w hz, ← packWord_fields v hv, hop, ha, hb]

theorem byte_and_ones (b : Byte) : b &&& 0xFF#8 = b := BitVec.and_allOnes

theorem selects_gfmulRow {w : Word} : gfmulRow.selects w = true ↔ fieldZ w = 0 ∧ fieldOp w = 0x01 := by
  have hz : fieldZ gfmulRow.pattern = 0 := by decide
  rw [selects_iff, eq_iff_fields hz]
  simp only [fieldZ, fieldOp, fieldA, fieldB, BitVec.extractLsb'_and, gfmulRow]
  simp [byte_and_ones]

theorem selects_addroundkeyRow {w : Word} :
    addroundkeyRow.selects w = true ↔ fieldZ w = 0 ∧ fieldOp w = 0x16 ∧ fieldB w = 0 := by
  have hz : fieldZ addroundkeyRow.pattern = 0 := by decide
  rw [selects_iff, eq_iff_fields hz]
  simp only [fieldZ, fieldOp, fieldA, fieldB, BitVec.extractLsb'_and, addroundkeyRow]
  simp [byte_and_ones]

/-- A word that selects a row decodes to a command of the row. -/
theorem decode_of_selects {row : OpcodeRow} (hrow : row ∈ opcodeTable) {w : Word} (hw : row.selects w = true) :
    ∃ i, decode w = .ok i ∧ i.mnemonic = row.mnemonic := by
  rcases opcodeTable_mask_cases row hrow with hmask | rfl | rfl
  · obtain rfl := (selects_of_full_mask hmask).mp hw
    have hdecodes := opcodeTable_pattern_decodes row hrow
    cases hi : decode row.pattern with
    | error e => simp [hi, Except.toOption] at hdecodes
    | ok i => exact ⟨i, rfl, by simpa [hi, Except.toOption] using hdecodes⟩
  · obtain ⟨hz, hop⟩ := selects_gfmulRow.mp hw
    refine ⟨.gfmul (fieldA w) (fieldB w), decode_ok_iff.mpr ⟨hz, ?_⟩, rfl⟩
    rw [hop]; rfl
  · obtain ⟨hz, hop, hb⟩ := selects_addroundkeyRow.mp hw
    refine ⟨.addroundkey (fieldA w).toNat, decode_ok_iff.mpr ⟨hz, ?_⟩, rfl⟩
    rw [hop, hb]; rfl

/-- The word of a command selects the row of its mnemonic. -/
theorem exists_row_selects_encode (i : Instr) :
    ∃ row ∈ opcodeTable, row.mnemonic = i.mnemonic ∧ row.selects (encode i) = true := by
  cases i with
  | gfmul a b =>
    refine ⟨gfmulRow, by decide, rfl, selects_gfmulRow.mpr ⟨?_, ?_⟩⟩
    · exact fieldZ_packWord _ _ _
    · exact fieldOp_packWord _ _ _
  | addroundkey r =>
    refine ⟨addroundkeyRow, by decide, rfl, selects_addroundkeyRow.mpr ⟨?_, ?_, ?_⟩⟩
    · exact fieldZ_packWord _ _ _
    · exact fieldOp_packWord _ _ _
    · exact fieldB_packWord _ _ _
  | _ => decide

/-- Settles O4: a selected row gives the command the word decodes to, and no two rows share a mnemonic. -/
theorem decoderFollowsMatchAndMask : Obligations.DecoderFollowsMatchAndMask := by
  unfold Obligations.DecoderFollowsMatchAndMask
  intro w
  constructor
  · intro i hi row hrow
    constructor
    · intro hselects
      obtain ⟨j, hj, hmnemonic⟩ := decode_of_selects hrow hselects
      obtain rfl : i = j := Except.ok.inj (hi.symm.trans hj)
      exact hmnemonic.symm
    · intro hmnemonic
      obtain ⟨row', hrow', hmnemonic', hselects⟩ := exists_row_selects_encode i
      rw [opcodeTable_mnemonic_injective row hrow row' hrow' (hmnemonic.trans hmnemonic'.symm),
        ← encode_of_decode hi]
      exact hselects
  · intro e he row hrow
    by_contra hselects
    obtain ⟨i, hi, -⟩ := decode_of_selects hrow (by simpa using hselects)
    rw [he] at hi
    cases hi

end Sys2Proof

/-! The invariants of spec/10_state.md rule R41: they hold after power-up; every command, command entry and host access
keeps them; and no step from a state that meets them stops. -/

namespace Sys2Proof.Machine

/-! ### Power-up -/

theorem inv_powerUp {cap : Word} {buf : Memory} (hcap : validCap cap) (hbuf : validBuf cap buf) :
    (State.powerUp cap buf).Inv where
  cap := hcap
  buf := hbuf
  len := Nat.zero_le _
  held := nofun
  notHeld _ := rfl
  err := Nat.zero_le _
  busy := rfl
  total := Nat.zero_le _
  totalBlocks := rfl

theorem validCap_bufCap : validCap Config.bufCap := by
  unfold validCap
  decide

theorem validBuf_nil (cap : Word) : validBuf cap [] := ⟨⟨.nil, nofun⟩, nofun⟩

theorem inv_reset : State.reset.Inv := inv_powerUp validCap_bufCap (validBuf_nil _)

/-- Settles O54: the reset state is one of the power-up states. -/
theorem powerUpMeetsTheInvariants : Obligations.PowerUpMeetsTheInvariants := by
  unfold Obligations.PowerUpMeetsTheInvariants
  exact ⟨inv_reset, fun _ _ => inv_powerUp⟩

/-! ### A command keeps the invariants -/

/-- A state with the same fields as one that meets the invariants, as far as these read them, and not busy. -/
theorem State.Inv.of_kept {s t : State} (hs : s.Inv) (hcap : t.CAP = s.CAP := by simp) (hbuf : t.BUF = s.BUF := by simp)
    (hlen : t.LEN = s.LEN := by simp) (hvalid : t.WVALID = s.WVALID := by simp) (hnr : t.NR = s.NR := by simp)
    (herr : t.ERR = s.ERR := by simp) (htotal : t.TOTAL = s.TOTAL := by simp) (hbusy : t.BUSY = false := by simp) :
    t.Inv := by
  constructor
  · rw [hcap]; exact hs.cap
  · rw [hcap, hbuf]; exact hs.buf
  · rw [hcap, hlen]; exact hs.len
  · rw [hvalid, hnr]; exact hs.held
  · rw [hvalid, hnr]; exact hs.notHeld
  · rw [herr]; exact hs.err
  · exact hbusy
  · rw [hcap, htotal]; exact hs.total
  · rw [htotal]; exact hs.totalBlocks

theorem ErrorCode.code_le (e : ErrorCode) : e.code.toNat ≤ 7 := by
  cases e <;> decide

theorem State.Inv.faulted {s : State} (hs : s.Inv) {code : Nibble} (hcode : code.toNat ≤ 7) : (s.faulted code).Inv :=
  { hs with err := hcode, busy := rfl }

theorem State.Inv.streamFaulted {s : State} (hs : s.Inv) {code : Nibble} (hcode : code.toNat ≤ 7) :
    (s.streamFaulted code).Inv :=
  { hs with err := hcode, busy := rfl }

/-- R150: a valid key length gives one of the three round counts. -/
theorem nrOf_cases {klen : Byte} (h : keyLenValid klen = true) :
    BitVec.ofNat 4 (nrOf klen) = 10 ∨ BitVec.ofNat 4 (nrOf klen) = 12 ∨ BitVec.ofNat 4 (nrOf klen) = 14 := by
  rcases keyLenValid_iff.mp h with h | h | h <;> simp [nrOf, nkOf, h]

theorem State.Inv.complete_loadExpandedKey {s : State} (hs : s.Inv) (hk : keyLenValid s.KLEN = true) :
    (complete (loadExpandedKey (accept s))).Inv := by
  rw [complete_loadExpandedKey_frame]
  exact ⟨hs.cap, hs.buf, hs.len, fun _ => nrOf_cases hk, nofun, hs.err, rfl, hs.total, hs.totalBlocks⟩

theorem validBuf_padBuffer {s : State} (hbuf : validBuf s.CAP s.BUF) (hfits : padFits s = true) :
    validBuf s.CAP (padBuffer s).BUF := by
  rw [padBuffer_BUF]
  exact validBuf_writeBytes hbuf _ _ (by simpa using padFits_iff.mp hfits)

theorem padBuffer_LEN_le_CAP {s : State} (hfits : padFits s = true) : (padBuffer s).LEN.toNat ≤ s.CAP.toNat :=
  (padBuffer_LEN_of_padFits hfits).trans_le (padFits_iff.mp hfits)

theorem unpadBuffer_LEN_le (s : State) : (unpadBuffer s).LEN.toNat ≤ s.LEN.toNat := by
  rw [unpadBuffer_LEN_toNat]; exact Nat.sub_le _ _

theorem unpadOrFallback_LEN_le (s : State) : (unpadOrFallback s).LEN.toNat ≤ s.LEN.toNat := by
  by_cases h : validPad s.BUF.read s.LEN.toNat
  · rw [unpadOrFallback_of_validPad h]; exact unpadBuffer_LEN_le s
  · rw [unpadOrFallback_of_not_validPad h, setFallback_LEN]

/-- The invariants of a command about to complete: the block loop over a buffer of whole blocks keeps them. -/
theorem State.Inv.complete_streamBlocks {s : State} (hs : (complete s).Inv) (hwhole : s.LEN.toNat % 16 = 0)
    (d : Direction) : (complete (streamBlocks d s)).Inv where
  cap := by simpa using hs.cap
  buf := by simpa using validBuf_streamBlocks d s hs.buf hs.len
  len := by simpa using hs.len
  held := by simp
  notHeld := by simp
  err := by simpa using hs.err
  busy := rfl
  total := by simpa using hs.len
  totalBlocks := by simpa using hwhole

theorem State.Inv.complete_emitResult {s : State} (hs : (complete s).Inv) : (complete (emitResult s)).Inv :=
  { hs with }

theorem State.Inv.complete_unpadBuffer {s : State} (hs : (complete s).Inv) : (complete (unpadBuffer s)).Inv :=
  { hs with len := (unpadBuffer_LEN_le s).trans hs.len }

theorem State.Inv.complete_unpadOrFallback {s : State} (hs : (complete s).Inv) :
    (complete (unpadOrFallback s)).Inv := by
  by_cases h : validPad s.BUF.read s.LEN.toNat
  · rw [unpadOrFallback_of_validPad h]; exact hs.complete_unpadBuffer
  · rw [unpadOrFallback_of_not_validPad h]; exact { hs with }

theorem State.Inv.complete_accept {s : State} (hs : s.Inv) : (complete (accept s)).Inv := { hs with busy := rfl }

theorem State.Inv.complete_padBuffer {s : State} (hs : s.Inv) (hfits : padFits s = true) :
    (complete (padBuffer (accept s))).Inv :=
  { hs with
    buf := validBuf_padBuffer (s := accept s) hs.buf hfits
    len := padBuffer_LEN_le_CAP (s := accept s) hfits
    busy := rfl }

theorem State.Inv.complete_storeBlock {s : State} (hs : s.Inv) (hc : s.POS.toNat + 16 ≤ s.CAP.toNat) :
    (complete (storeBlock (accept s))).Inv := by
  have hbuf := validBuf_writeBlock hs.buf s.POS.toNat (toExternal s.S) hc
  rw [complete_storeBlock_frame]
  exact ⟨hs.cap, by simpa using hbuf, hs.len, hs.held, hs.notHeld, hs.err, rfl, hs.total, hs.totalBlocks⟩

theorem Effect.keeps_inv {i : Instr} {s t : State} (h : Effect s i t) (hs : s.Inv) : t.Inv := by
  cases h with
  | gfmul | subbytes | invsubbytes | shiftrows | invshiftrows | mixcolumns | invmixcolumns | addroundkey | encblk
  | decblk | ldblk => exact hs.of_kept
  | addroundkeyNoKey | addroundkeyRange | expandkeySize | encblkNoKey | decblkNoKey | padCapacity | ldblkRange
  | stblkRange => exact hs.faulted (by decide)
  | unpadInvalid e => exact hs.faulted e.code_le
  | streamencSize | streamencCapacity | streamdecSize | streamdecLength | rawdecSize | rawdecLength =>
    exact hs.streamFaulted (by decide)
  | expandkey hk => exact hs.complete_loadExpandedKey hk
  | pad hp => exact hs.complete_padBuffer hp
  | unpad => exact hs.complete_accept.complete_unpadBuffer
  | stblk hb hc => exact hs.complete_storeBlock hc
  | streamenc hk hp =>
    have hwhole : (padBuffer (accept s)).LEN.toNat % 16 = 0 := padBuffer_LEN_whole (s := accept s) hp
    exact ((hs.complete_padBuffer hp).complete_streamBlocks hwhole _).complete_emitResult
  | streamdec hk hb hl =>
    have hwhole : (accept s).LEN.toNat % 16 = 0 := wholeBlocks_iff.mp hb
    exact (hs.complete_accept.complete_streamBlocks hwhole _).complete_unpadOrFallback.complete_emitResult
  | rawdec hk hb hl =>
    have hwhole : (accept s).LEN.toNat % 16 = 0 := wholeBlocks_iff.mp hb
    exact (hs.complete_accept.complete_streamBlocks hwhole _).complete_emitResult
  | clrerr =>
    rw [complete_returnFromFault_frame]
    exact { hs with err := Nat.zero_le _, busy := rfl }
  | sreset => exact { inv_powerUp hs.cap hs.buf with }

/-! ### A step keeps the invariants -/

theorem commandEntry_keeps_inv {w : Word} {s t : State} (hs : s.Inv) (h : commandEntry w s = .next t) : t.Inv := by
  rcases commandEntry_cases h with rfl | ⟨-, -, ⟨-, rfl⟩ | ⟨i, -, hexec⟩⟩
  · exact hs
  · exact hs.faulted (by decide)
  · exact (exec_effect hexec).keeps_inv hs

theorem DataWrite.keeps_inv {s t : State} (h : DataWrite s t) (hs : s.Inv) : t.Inv := by
  cases h with
  | len v hv => exact { hs with len := hv }
  | buffer a v ha => exact { hs with buf := validBuf_write hs.buf a v ha }
  | _ => exact { hs with }

theorem hostAccess_keeps_inv {a : HostAccess} {s t : State} (hs : s.Inv) (h : hostAccess a s = .next t) : t.Inv := by
  obtain ⟨u, r, rfl, hu⟩ := hostAccess_cases h
  have hu : u.Inv := by
    rcases hu with ⟨w, -, hentry⟩ | rfl | ⟨-, hwrite⟩
    · exact commandEntry_keeps_inv hs hentry
    · exact hs
    · exact hwrite.keeps_inv hs
  exact { hu with }

theorem step_nil {s : State} (h : s.pending = []) : step s = .next s := by
  simp [step, nextAccess, h]

/-- Settles O55: a step is one host access, and what it can change is a command's effect or one field within its
bounds. -/
theorem stepKeepsTheInvariants : Obligations.StepKeepsTheInvariants := by
  unfold Obligations.StepKeepsTheInvariants
  intro s t hs hstep
  cases hp : s.pending with
  | nil =>
    rw [step_nil hp] at hstep
    cases hstep
    exact hs
  | cons a rest =>
    rw [step_cons hp] at hstep
    exact hostAccess_keeps_inv (s := { s with pending := rest }) { hs with } hstep

/-! ### No step stops -/

theorem State.Inv.NR_le {s : State} (hs : s.Inv) : s.NR.toNat ≤ 14 := by
  cases hw : s.WVALID with
  | false => simp [hs.notHeld hw]
  | true => rcases hs.held hw with h | h | h <;> simp [h]

/-- The guards of an index outside `BUF` or `W` pass in every state that meets the invariants. -/
theorem State.Inv.exec_next {s : State} (hs : s.Inv) (i : Instr) : ∃ t, exec i s = .next t := by
  cases i with
  | addroundkey r =>
    cases hw : s.WVALID with
    | false => exact ⟨_, exec_addroundkey_noKey hw⟩
    | true =>
      by_cases hr : r ≤ s.NR.toNat
      · exact ⟨_, exec_addroundkey_adds hw hr hs.NR_le⟩
      · exact ⟨_, exec_addroundkey_range hw (Nat.not_le.mp hr)⟩
  | encblk =>
    cases hw : s.WVALID with
    | false => exact ⟨_, exec_blockCommand_noKey .encrypt hw⟩
    | true => exact ⟨_, exec_blockCommand_crypts .encrypt hw hs.NR_le⟩
  | decblk =>
    cases hw : s.WVALID with
    | false => exact ⟨_, exec_blockCommand_noKey .decrypt hw⟩
    | true => exact ⟨_, exec_blockCommand_crypts .decrypt hw hs.NR_le⟩
  | expandkey =>
    cases hk : keyLenValid s.KLEN with
    | false => exact ⟨_, exec_expandkey_invalid hk⟩
    | true => exact ⟨_, exec_expandkey_valid hk⟩
  | pad =>
    cases hfits : padFits s with
    | false => exact ⟨_, exec_pad_overflows hfits⟩
    | true => exact ⟨_, exec_pad_fits hfits⟩
  | unpad =>
    cases hcheck : unpadCheck s.BUF s.LEN.toNat with
    | some e => exact ⟨_, exec_unpad_raises hs.len hcheck⟩
    | none => exact ⟨_, exec_unpad_passes hs.len hcheck⟩
  | ldblk =>
    cases hr : blockInRange s with
    | false => exact ⟨_, exec_ldblk_outOfRange hr⟩
    | true => exact ⟨_, exec_ldblk_loads hr hs.len⟩
  | stblk =>
    cases hr : blockInRange s with
    | false => exact ⟨_, exec_stblk_outOfRange hr⟩
    | true => exact ⟨_, exec_stblk_stores hr hs.len⟩
  | streamenc =>
    cases hk : keyLenValid s.KLEN with
    | false => exact ⟨_, exec_stream_invalidKey rfl hk⟩
    | true =>
      cases hfits : padFits s with
      | false => exact ⟨_, exec_streamenc_overflows hk hfits⟩
      | true => exact ⟨_, exec_streamenc_encrypts hk hfits⟩
  | streamdec =>
    cases hk : keyLenValid s.KLEN with
    | false => exact ⟨_, exec_stream_invalidKey rfl hk⟩
    | true =>
      cases hw : wholeBlocks s with
      | false => exact ⟨_, exec_streamdec_partialBlock hk hw⟩
      | true => exact ⟨_, exec_streamdec_decrypts hk hw hs.len⟩
  | rawdec =>
    cases hk : keyLenValid s.KLEN with
    | false => exact ⟨_, exec_stream_invalidKey rfl hk⟩
    | true =>
      cases hw : wholeBlocks s with
      | false => exact ⟨_, exec_rawdec_partialBlock hk hw⟩
      | true => exact ⟨_, exec_rawdec_decrypts hk hw hs.len⟩
  | _ => exact ⟨_, rfl⟩

theorem State.Inv.commandEntry_next {s : State} (hs : s.Inv) (w : Word) : ∃ t, commandEntry w s = .next t := by
  unfold commandEntry
  split
  · exact ⟨s, rfl⟩
  · split
    · exact ⟨s, rfl⟩
    · split
      · exact ⟨_, rfl⟩
      · exact hs.exec_next _

theorem writeOutcome_next (s : State) (o : Option State) : ∃ t, writeOutcome s o = .next t := by
  cases o <;> exact ⟨_, rfl⟩

theorem State.Inv.hostAccess_next {s : State} (hs : s.Inv) (a : HostAccess) : ∃ t, hostAccess a s = .next t := by
  cases a with
  | read8 | read32 | otherWidth => exact ⟨_, rfl⟩
  | write8 addr v => exact writeOutcome_next s (hostWrite8 addr v s)
  | write32 addr v =>
    change ∃ t, hostWrite32 addr v s = .next t
    unfold hostWrite32
    split
    · exact writeOutcome_next _ _
    · split
      · obtain ⟨t, ht⟩ := hs.commandEntry_next v
        exact ⟨_, by rw [ht]; rfl⟩
      · exact writeOutcome_next _ _
      · exact writeOutcome_next _ _

/-- Settles O56: a step is one host access, and of those only a command could stop. -/
theorem coreNeverStops : Obligations.CoreNeverStops := by
  unfold Obligations.CoreNeverStops
  intro s hs
  cases hp : s.pending with
  | nil => exact ⟨s, step_nil hp⟩
  | cons a rest =>
    rw [step_cons hp]
    exact State.Inv.hostAccess_next (s := { s with pending := rest }) { hs with } a

end Sys2Proof.Machine

/-! The step and the error latch: spec/60_exceptions.md rules R212 and R216, spec/30_encoding.md rule R95. -/

namespace Sys2Proof.Machine

/-! ### The step -/

/-- Settles O8: with nothing pending a step is the identity. -/
theorem idleCoreHoldsItsState : Obligations.IdleCoreHoldsItsState := by
  unfold Obligations.IdleCoreHoldsItsState
  exact fun _ => step_nil

/-- The latch lets exactly two words through. -/
theorem passesLatch_iff {w : Word} : passesLatch w = true ↔ w = 0x000000F0 ∨ w = 0x000000FF := by
  simp [passesLatch]

theorem commandEntry_accepts {w : Word} {s : State} (hbusy : s.BUSY = false)
    (hlatch : s.ERR = 0 ∨ w = 0x000000F0 ∨ w = 0x000000FF) {i : Instr} (hw : decode w = .ok i) :
    commandEntry w s = exec i s := by
  have hpass : ¬ (s.ERR ≠ 0 ∧ passesLatch w = false) := by
    rw [← Bool.not_eq_true, passesLatch_iff]; tauto
  unfold commandEntry
  rw [if_neg (by simp [hbusy]), if_neg hpass, hw]

theorem commandEntry_drops {w : Word} {s : State} (herr : s.ERR ≠ 0) (h1 : w ≠ 0x000000F0) (h2 : w ≠ 0x000000FF) :
    commandEntry w s = .next s := by
  have hpass : s.ERR ≠ 0 ∧ passesLatch w = false := by
    rw [← Bool.not_eq_true, passesLatch_iff]; tauto
  unfold commandEntry
  rw [if_pos hpass, ite_self]

/-- Settles O6: the access is a write of `CMD`, and the command entry procedure accepts its word. -/
theorem stepExecutesTheDecodedCommand : Obligations.StepExecutesTheDecodedCommand := by
  unfold Obligations.StepExecutesTheDecodedCommand
  intro s w rest i hpending hbusy hlatch hw
  have hentry : commandEntry w { s with pending := rest } = exec i { s with pending := rest } :=
    commandEntry_accepts (s := { s with pending := rest }) hbusy hlatch hw
  rw [step_cons hpending, hostAccess_issue w (s := { s with pending := rest }) hbusy, hentry]

/-! ### The error latch -/

theorem hostRead8_withERR (e : Nibble) (addr : Word) (s : State) :
    hostRead8 addr { s with ERR := e } = hostRead8 addr s := rfl

theorem hostWrite8_withERR (e : Nibble) (addr : Word) (v : Byte) (s : State) :
    hostWrite8 addr v { s with ERR := e } = (hostWrite8 addr v s).map fun u => { u with ERR := e } := by
  unfold hostWrite8
  dsimp only
  split
  · rfl
  · split <;> rfl

/-- Every register but `STATUS` reads independently of the latch. -/
theorem readRegister_withERR (e : Nibble) {r : ControlRegister} (hr : r ≠ .status) (s : State) :
    readRegister { s with ERR := e } r = readRegister s r := by
  cases r with
  | status => exact absurd rfl hr
  | _ => rfl

theorem hostRead32_withERR (e : Nibble) {addr : Word} (haddr : addr ≠ 0x00000004) (s : State) :
    hostRead32 addr { s with ERR := e } = hostRead32 addr s := by
  unfold hostRead32
  dsimp only
  cases hreg : registerOf s.CAP addr with
  | none => rfl
  | some r =>
    have hr : r ≠ .status := by
      rintro rfl
      exact haddr (BitVec.eq_of_toNat_eq (registerAt_status (registerOf_some hreg)))
    simp only [readRegister_withERR e hr]

theorem writeRegister_withERR (e : Nibble) (r : ControlRegister) (v : Word) (s : State) :
    writeRegister r v { s with ERR := e } = (writeRegister r v s).map fun u => { u with ERR := e } := by
  cases r with
  | len =>
    unfold writeRegister
    dsimp only
    split <;> rfl
  | _ => rfl

theorem writeOutcome_withERR (e : Nibble) {s t : State} {o : Option State} (h : writeOutcome s o = .next t) :
    writeOutcome { s with ERR := e } (o.map fun u => { u with ERR := e }) = .next { t with ERR := e } := by
  cases o <;> (cases h; rfl)

/-- A write of a register other than `CMD`. -/
theorem hostWrite32_register {addr v : Word} {s : State} (hbusy : s.BUSY = false) (haddr : addr ≠ 0x00000000) :
    hostWrite32 addr v s = writeOutcome s ((registerOf s.CAP addr).bind fun r => writeRegister r v s) := by
  simp only [hostWrite32, if_neg (Bool.eq_false_iff.mp hbusy)]
  cases hreg : registerOf s.CAP addr with
  | none => rfl
  | some r =>
    have hr : r ≠ .cmd := by
      rintro rfl
      exact haddr (BitVec.eq_of_toNat_eq (registerAt_cmd (registerOf_some hreg)))
    cases r with
    | cmd => exact absurd rfl hr
    | _ => rfl

theorem hostWrite32_withERR (e : Nibble) {addr v : Word} {s t : State} (haddr : addr ≠ 0x00000000)
    (h : hostWrite32 addr v s = .next t) : hostWrite32 addr v { s with ERR := e } = .next { t with ERR := e } := by
  rcases Bool.eq_false_or_eq_true s.BUSY with hbusy | hbusy
  · rw [hostWrite32_busy addr v hbusy] at h
    cases h
    exact hostWrite32_busy addr v (s := { s with ERR := e }) hbusy
  · rw [hostWrite32_register hbusy haddr] at h
    rw [hostWrite32_register (s := { s with ERR := e }) hbusy haddr, ← writeOutcome_withERR e h]
    cases registerOf s.CAP addr with
    | none => rfl
    | some r => exact congrArg _ (writeRegister_withERR e r v s)

/-- R212: an access that is neither a write of `CMD` nor a read of `STATUS` neither reads nor writes the latch. -/
theorem hostAccess_withERR (e : Nibble) {a : HostAccess} {s t : State} (hcmd : ∀ w, a ≠ .write32 0x00000000 w)
    (hstatus : a ≠ .read32 0x00000004) (h : hostAccess a s = .next t) :
    hostAccess a { s with ERR := e } = .next { t with ERR := e } := by
  cases a with
  | read8 addr => cases h; rfl
  | otherWidth bits addr => cases h; rfl
  | read32 addr =>
    have haddr : addr ≠ 0x00000004 := fun h => hstatus (h ▸ rfl)
    cases h
    rw [hostAccess, hostRead32_withERR e haddr]; rfl
  | write8 addr v =>
    rw [hostAccess, hostWrite8_withERR]
    exact writeOutcome_withERR e h
  | write32 addr v =>
    have haddr : addr ≠ 0x00000000 := fun h => hcmd v (h ▸ rfl)
    exact hostWrite32_withERR e haddr h

/-- Settles O7: the command entry procedure drops the word, and every other access is blind to the latch. -/
theorem latchedErrorDropsCommands : Obligations.LatchedErrorDropsCommands := by
  unfold Obligations.LatchedErrorDropsCommands
  constructor
  · intro s w rest hpending hbusy herr h1 h2
    have hdrop : commandEntry w { s with pending := rest } = .next { s with pending := rest } :=
      commandEntry_drops (s := { s with pending := rest }) herr h1 h2
    rw [step_cons hpending, hostAccess_issue w (s := { s with pending := rest }) hbusy, hdrop]
    rfl
  · exact fun s e a t => hostAccess_withERR e

/-- The two words that pass the latch clear it. -/
theorem exec_of_passed_word {w : Word} (hw : w = 0x000000F0 ∨ w = 0x000000FF) {i : Instr} (hi : decode w = .ok i)
    {s t : State} (h : exec i s = .next t) : t.ERR = 0 := by
  rcases hw with rfl | rfl
  · cases hi
    cases exec_effect h
    rfl
  · cases hi
    cases exec_effect h
    rfl

theorem decode_of_passed_word {w : Word} (hw : w = 0x000000F0 ∨ w = 0x000000FF) (e : Illegal) :
    decode w ≠ .error e := by
  rcases hw with rfl | rfl <;> exact nofun

theorem commandEntry_latched {w : Word} {s t : State} (hs : s.ERR ≠ 0) (h : commandEntry w s = .next t) :
    t.ERR = s.ERR ∨ t.ERR = 0 := by
  rcases commandEntry_cases h with rfl | ⟨-, hlatch, hcommand⟩
  · exact .inl rfl
  · have hw : w = 0x000000F0 ∨ w = 0x000000FF := hlatch.resolve_left hs
    rcases hcommand with ⟨⟨e, he⟩, -⟩ | ⟨i, hi, hexec⟩
    · exact absurd he (decode_of_passed_word hw e)
    · exact .inr (exec_of_passed_word hw hi hexec)

theorem DataWrite.ERR_eq {s t : State} (h : DataWrite s t) : t.ERR = s.ERR := by
  cases h <;> rfl

/-- Settles O9: only a word that passes the latch changes `ERR`, and it clears it. -/
theorem latchedCodeIsNeverOverwritten : Obligations.LatchedCodeIsNeverOverwritten := by
  unfold Obligations.LatchedCodeIsNeverOverwritten
  intro s t hs hstep
  cases hp : s.pending with
  | nil =>
    rw [step_nil hp] at hstep
    cases hstep
    exact .inl rfl
  | cons a rest =>
    rw [step_cons hp] at hstep
    obtain ⟨u, r, rfl, ⟨w, -, hentry⟩ | rfl | ⟨-, hwrite⟩⟩ := hostAccess_cases hstep
    · exact commandEntry_latched (s := { s with pending := rest }) (t := u) hs hentry
    · exact .inl rfl
    · exact .inl hwrite.ERR_eq

end Sys2Proof.Machine

/-! The field laws of the multiplier, and from them that the round transforms, the block functions and the two block
commands undo each other: spec/40_gf_and_tables.md rules R116, R117; spec/41_round_transforms.md rule R141;
spec/43_block_cipher.md rules R164 to R166. -/

namespace Sys2Proof.Machine

/-! ### The field laws

The product is commutative, so what `gmul_xor` and `gmul_xtime` say of the right factor holds of the left one too, and a
constant factor is read off its expansion into doublings. -/

/-- Settles O13: the constants are the powers of the generator. -/
theorem roundConstantValues : Obligations.RoundConstantValues := by
  unfold Obligations.RoundConstantValues
  constructor
  · decide
  · intro r hlow hhigh
    obtain ⟨k, rfl⟩ := Nat.exists_eq_add_of_le' hlow
    have hk : 1 ≤ k + 1 ∧ k + 1 ≤ 10 := by omega
    have hk' : 1 ≤ k + 1 + 1 ∧ k + 1 + 1 ≤ 10 := by omega
    rw [rcon, rcon, if_pos hk, if_pos hk']
    rfl

theorem one_gmul (x : Byte) : gmul 1#8 x = x := (gmul_comm 1 x).trans (gmul_one x)

theorem xor_gmul (a b x : Byte) : gmul (a ^^^ b) x = gmul a x ^^^ gmul b x := by
  rw [gmul_comm, gmul_xor, gmul_comm x a, gmul_comm x b]

theorem xtime_gmul (a x : Byte) : gmul (xtime a) x = xtime (gmul a x) := by
  rw [gmul_comm, gmul_xtime, gmul_comm]

theorem gmul_assoc (a b c : Byte) : gmul a (gmul b c) = gmul (gmul a b) c := by
  rw [gmul_comm b c, gmul_left_comm, gmul_comm c]

theorem gmul_zero (x : Byte) : gmul x 0#8 = 0#8 := by simpa using gmul_xor x 0 0

theorem zero_gmul (x : Byte) : gmul 0#8 x = 0#8 := by rw [gmul_comm, gmul_zero]

/-- R117: the products by the entries of the two mix matrices, as sums of doublings. -/
theorem gmul_constants (x : Byte) :
    gmul 2 x = xtime x ∧ gmul 3 x = xtime x ^^^ x ∧
    gmul 9 x = xtime (xtime (xtime x)) ^^^ x ∧
    gmul 11 x = xtime (xtime (xtime x)) ^^^ xtime x ^^^ x ∧
    gmul 13 x = xtime (xtime (xtime x)) ^^^ xtime (xtime x) ^^^ x ∧
    gmul 14 x = xtime (xtime (xtime x)) ^^^ xtime (xtime x) ^^^ xtime x := by
  have h2 : (2 : Byte) = xtime 1#8 := rfl
  have h3 : (3 : Byte) = xtime 1#8 ^^^ 1#8 := rfl
  have h9 : (9 : Byte) = xtime (xtime (xtime 1#8)) ^^^ 1#8 := rfl
  have h11 : (11 : Byte) = xtime (xtime (xtime 1#8)) ^^^ xtime 1#8 ^^^ 1#8 := rfl
  have h13 : (13 : Byte) = xtime (xtime (xtime 1#8)) ^^^ xtime (xtime 1#8) ^^^ 1#8 := rfl
  have h14 : (14 : Byte) = xtime (xtime (xtime 1#8)) ^^^ xtime (xtime 1#8) ^^^ xtime 1#8 := rfl
  rw [h2, h3, h9, h11, h13, h14]
  simp only [xor_gmul, xtime_gmul, one_gmul, and_self]

/-- Settles O11: the listed laws; the inverse of `x` is the one its entry in `SBOX` holds. -/
theorem gmulLaws : Obligations.GmulLaws := by
  unfold Obligations.GmulLaws
  refine ⟨by decide, one_gmul, fun x => ⟨zero_gmul x, gmul_zero x⟩, gmul_constants, gmul_comm, gmul_xor, gmul_assoc, ?_⟩
  intro x hx
  have hinv := gmul_inverseAffineMap_sbox x hx
  exact ⟨_, hinv, fun z hz => eq_of_gmul_eq_one hz hinv⟩

/-! ### The column transforms are products of matrices -/

/-- Entry `(i, k)` of the product of two mix matrices. -/
def mixMul (m m' : Nat → Nat → Byte) (i k : Nat) : Byte :=
  gmul (m i 0) (m' 0 k) ^^^ gmul (m i 1) (m' 1 k) ^^^ gmul (m i 2) (m' 2 k) ^^^ gmul (m i 3) (m' 3 k)

/-- The identity matrix. -/
def mixOne (i k : Nat) : Byte := if k = i then 1 else 0

/-- R136, R137: the two mix matrices are inverses of each other. -/
theorem mixMul_invMix_mix : ∀ i k : Fin 4, mixMul invMix mix i k = mixOne i k := by decide +kernel

theorem mixMul_mix_invMix : ∀ i k : Fin 4, mixMul mix invMix i k = mixOne i k := by decide +kernel

/-- Two column transforms one after the other are the transform by the product of their matrices. -/
theorem mixByte_mixBy (m m' : Nat → Nat → Byte) (s : Block) (i : Nat) (c : Fin 4) :
    mixByte m (mixBy m' s) i c = mixByte (mixMul m m') s i c := by
  have hrow (k : Nat) (hk : k < 4) : (mixBy m' s)[4 * k + c.val] = mixByte m' s k c := mixBy_lane m' s ⟨k, hk⟩ c
  have h0 := hrow 0 (by decide)
  have h1 := hrow 1 (by decide)
  have h2 := hrow 2 (by decide)
  have h3 := hrow 3 (by decide)
  simp only [Nat.mul_zero, Nat.zero_add, Nat.mul_one, Nat.reduceMul] at h0 h1 h2 h3
  rw [mixByte, h0, h1, h2, h3]
  simp only [mixByte, mixMul, gmul_xor, xor_gmul, gmul_assoc]
  ac_rfl

theorem mixByte_congr {m m' : Nat → Nat → Byte} {i : Nat} (h : ∀ k : Fin 4, m i k = m' i k) (s : Block) (c : Fin 4) :
    mixByte m s i c = mixByte m' s i c := by
  have h0 := h 0
  have h1 := h 1
  have h2 := h 2
  have h3 := h 3
  simp only [Fin.isValue, Fin.coe_ofNat_eq_mod, Nat.reduceMod, Nat.zero_mod, Nat.one_mod] at h0 h1 h2 h3
  simp only [mixByte, h0, h1, h2, h3]

theorem mixByte_mixOne (s : Block) (i c : Fin 4) : mixByte mixOne s i.val c = s[4 * i.val + c.val] := by
  match i with
  | 0 | 1 | 2 | 3 => simp [mixByte, mixOne, one_gmul, zero_gmul]

theorem mixBy_mixBy_of_mixMul {m m' : Nat → Nat → Byte} (h : ∀ i k : Fin 4, mixMul m m' i k = mixOne i k) (s : Block) :
    mixBy m (mixBy m' s) = s := by
  apply Vector.ext
  intro j hj
  have hi : j / 4 < 4 := by omega
  have hc : j % 4 < 4 := by omega
  have hlane : 4 * (j / 4) + j % 4 = j := Nat.div_add_mod j 4
  calc (mixBy m (mixBy m' s))[j]
    _ = mixByte m (mixBy m' s) (j / 4) ⟨j % 4, hc⟩ := getElem_mixBy m _ j hj
    _ = mixByte (mixMul m m') s (j / 4) ⟨j % 4, hc⟩ := mixByte_mixBy m m' s _ _
    _ = mixByte mixOne s (j / 4) ⟨j % 4, hc⟩ := mixByte_congr (h ⟨j / 4, hi⟩) s _
    _ = s[4 * (j / 4) + j % 4] := mixByte_mixOne s ⟨j / 4, hi⟩ ⟨j % 4, hc⟩
    _ = s[j] := by simp only [hlane]

/-! ### The inverse pairs -/

theorem invMixColumns_mixColumns (s : Block) : invMixColumns (mixColumns s) = s :=
  mixBy_mixBy_of_mixMul mixMul_invMix_mix s

theorem mixColumns_invMixColumns (s : Block) : mixColumns (invMixColumns s) = s :=
  mixBy_mixBy_of_mixMul mixMul_mix_invMix s

theorem invSubBytes_subBytes (s : Block) : invSubBytes (subBytes s) = s := by
  apply Vector.ext
  intro j hj
  simp only [getElem_invSubBytes, getElem_subBytes, invSbox_sbox]

theorem subBytes_invSubBytes (s : Block) : subBytes (invSubBytes s) = s := by
  apply Vector.ext
  intro j hj
  simp only [getElem_invSubBytes, getElem_subBytes, sbox_invSbox]

theorem invShiftRows_shiftRows (s : Block) : invShiftRows (shiftRows s) = s := by
  apply Vector.ext
  intro j hj
  simp only [getElem_invShiftRows, getElem_shiftRows]
  congr 1
  omega

theorem shiftRows_invShiftRows (s : Block) : shiftRows (invShiftRows s) = s := by
  apply Vector.ext
  intro j hj
  simp only [getElem_invShiftRows, getElem_shiftRows]
  congr 1
  omega

theorem subBytes_shiftRows (s : Block) : subBytes (shiftRows s) = shiftRows (subBytes s) := by
  apply Vector.ext
  intro j hj
  simp only [getElem_subBytes, getElem_shiftRows]

theorem invSubBytes_invShiftRows (s : Block) : invSubBytes (invShiftRows s) = invShiftRows (invSubBytes s) := by
  apply Vector.ext
  intro j hj
  simp only [getElem_invSubBytes, getElem_invShiftRows]

/-- Settles O18: the pairs by table, by rotation, by matrix and by exclusive or; the tables act on each lane alone. -/
theorem roundTransformsInvertEachOther : Obligations.RoundTransformsInvertEachOther := by
  unfold Obligations.RoundTransformsInvertEachOther
  intro s
  exact ⟨⟨invSubBytes_subBytes s, subBytes_invSubBytes s⟩, ⟨invShiftRows_shiftRows s, shiftRows_invShiftRows s⟩,
    ⟨invMixColumns_mixColumns s, mixColumns_invMixColumns s⟩, addRoundKey_addRoundKey s, subBytes_shiftRows s,
    invSubBytes_invShiftRows s⟩

/-! ### Decryption undoes encryption

After `n` of its full rounds, decryption of a ciphertext has come back to the block that encryption had before the
column transform of round `nr - n`; and the other way round. -/

theorem decryptRounds_encryptState (s : Block) (w : KeyMemory) {nr n : Nat} (hn : n ≤ nr - 1) :
    decryptRounds w nr (encryptState s w nr) n = shiftRows (subBytes (encryptRounds w s (nr - 1 - n))) := by
  induction n with
  | zero => exact addRoundKey_addRoundKey _ w nr
  | succ n ih =>
    obtain ⟨m, hm⟩ : ∃ m, nr - 1 - n = m + 1 := ⟨nr - 1 - n - 1, by omega⟩
    have hround : nr - (n + 1) = m + 1 := by omega
    have hleft : nr - 1 - (n + 1) = m := by omega
    rw [decryptRounds, ih (Nat.le_of_succ_le hn), hm, hround, hleft, decryptRound, invShiftRows_shiftRows,
      invSubBytes_subBytes, encryptRounds, encryptRound, addRoundKey_addRoundKey, invMixColumns_mixColumns]

theorem decryptState_encryptState (s : Block) (w : KeyMemory) (nr : Nat) :
    decryptState (encryptState s w nr) w nr = s := by
  rw [decryptState, decryptRounds_encryptState s w le_rfl, Nat.sub_self, invShiftRows_shiftRows, invSubBytes_subBytes,
    encryptRounds, addRoundKey_addRoundKey]

theorem encryptRounds_decryptState (s : Block) (w : KeyMemory) {nr n : Nat} (hn : n ≤ nr - 1) :
    encryptRounds w (decryptState s w nr) n = invSubBytes (invShiftRows (decryptRounds w nr s (nr - 1 - n))) := by
  induction n with
  | zero => exact addRoundKey_addRoundKey _ w 0
  | succ n ih =>
    obtain ⟨m, hm⟩ : ∃ m, nr - 1 - n = m + 1 := ⟨nr - 1 - n - 1, by omega⟩
    have hround : nr - (m + 1) = n + 1 := by omega
    have hleft : nr - 1 - (n + 1) = m := by omega
    rw [encryptRounds, ih (Nat.le_of_succ_le hn), hm, hleft, encryptRound, subBytes_invSubBytes, shiftRows_invShiftRows,
      decryptRounds, hround, decryptRound, mixColumns_invMixColumns, addRoundKey_addRoundKey]

theorem encryptState_decryptState (s : Block) (w : KeyMemory) (nr : Nat) :
    encryptState (decryptState s w nr) w nr = s := by
  rw [encryptState, encryptRounds_decryptState s w le_rfl, Nat.sub_self, subBytes_invSubBytes, shiftRows_invShiftRows,
    decryptRounds, addRoundKey_addRoundKey]

/-- The other direction of the block core. -/
def Direction.opposite : Direction → Direction
  | .encrypt => .decrypt
  | .decrypt => .encrypt

theorem cryptState_opposite (d : Direction) (s : Block) (w : KeyMemory) (nr : Nat) :
    cryptState d.opposite (cryptState d s w nr) w nr = s := by
  cases d with
  | encrypt => exact decryptState_encryptState s w nr
  | decrypt => exact encryptState_decryptState s w nr

theorem runCommands_cons {i : Instr} {is : List Instr} {s t : State} (h : exec i s = .next t) :
    runCommands (i :: is) s = runCommands is t := by
  rw [runCommands, h]

/-- A block command and the one of the other direction restore `S`. -/
theorem runCommands_opposite (d : Direction) {s : State} (hw : s.WVALID = true) (hn : s.NR.toNat ≤ 14) :
    ∃ t, runCommands [blockCommand d, blockCommand d.opposite] s = .next t ∧ t.S = s.S := by
  have h1 : exec (blockCommand d) s = .next (complete (cryptS d (accept s))) := exec_blockCommand_crypts d hw hn
  obtain ⟨u, hu, hS, -⟩ := blockCommand_held_key d.opposite (s := complete (cryptS d (accept s))) hw hn
  refine ⟨u, ?_, ?_⟩
  · rw [runCommands_cons h1, runCommands_cons hu]; rfl
  · simpa using hS.trans (cryptState_opposite d s.S s.W s.NR.toNat)

/-- Settles O22: the rounds cancel from the middle outwards, and a block command keeps the key it used. -/
theorem decryptionUndoesEncryption : Obligations.DecryptionUndoesEncryption := by
  unfold Obligations.DecryptionUndoesEncryption
  constructor
  · exact fun s w nr => ⟨decryptState_encryptState s w nr, encryptState_decryptState s w nr⟩
  · exact fun s hw hn => ⟨runCommands_opposite .encrypt hw hn, runCommands_opposite .decrypt hw hn⟩

/-! ### The primitive commands of a block -/

/-- Commands that, under the held key `w` of `nr` rounds, put `f S` into `S`, keep the key and raise nothing. -/
def Computes (w : KeyMemory) (nr : Nibble) (is : List Instr) (f : Block → Block) : Prop :=
  ∀ s : State, s.WVALID = true → s.W = w → s.NR = nr →
    ∃ t, runCommands is s = .next t ∧ t.S = f s.S ∧ t.WVALID = true ∧ t.W = w ∧ t.NR = nr ∧ t.ERR = s.ERR

theorem runCommands_append {is js : List Instr} {s t : State} (h : runCommands is s = .next t) :
    runCommands (is ++ js) s = runCommands js t := by
  induction is generalizing s with
  | nil => cases h; rfl
  | cons i is ih =>
    rw [runCommands] at h
    rw [List.cons_append, runCommands]
    split at h
    · next u _ => exact ih h
    · cases h
    · cases h

section
variable {w : KeyMemory} {nr : Nibble} {is js : List Instr} {f g : Block → Block}

theorem Computes.nil : Computes w nr [] id := fun s hv hw hn => ⟨s, rfl, rfl, hv, hw, hn, rfl⟩

theorem Computes.append (his : Computes w nr is f) (hjs : Computes w nr js g) : Computes w nr (is ++ js) (g ∘ f) := by
  intro s hv hw hn
  obtain ⟨t, ht, hS, hv', hw', hn', he⟩ := his s hv hw hn
  obtain ⟨u, hu, hS', hv'', hw'', hn'', he'⟩ := hjs t hv' hw' hn'
  refine ⟨u, ?_, ?_, hv'', hw'', hn'', he'.trans he⟩
  · rw [runCommands_append ht, hu]
  · rw [hS', hS, Function.comp_apply]

theorem Computes.cons {i : Instr} (hi : Computes w nr [i] f) (his : Computes w nr is g) :
    Computes w nr (i :: is) (g ∘ f) :=
  hi.append his

/-- A command that completes with `f S` in `S`. -/
theorem Computes.of_setS {i : Instr}
    (h : ∀ s : State, s.WVALID = true → s.W = w → s.NR = nr → exec i s = .next (complete (setS (f s.S) (accept s)))) :
    Computes w nr [i] f := by
  intro s hv hw hn
  exact ⟨_, by rw [runCommands_cons (h s hv hw hn)]; rfl, by simp, by simpa, by simpa, by simpa, by simp⟩

/-- A command that completes with `f S` in `S` and in the scratch register. -/
theorem Computes.of_setSThroughT {i : Instr}
    (h : ∀ s : State, exec i s = .next (complete (setSThroughT (f s.S) (accept s)))) : Computes w nr [i] f := by
  intro s hv hw hn
  exact ⟨_, by rw [runCommands_cons (h s)]; rfl, by simp, by simpa, by simpa, by simpa, by simp⟩

theorem Computes.addroundkey {r : Nat} (hr : r ≤ nr.toNat) (hn : nr.toNat ≤ 14) :
    Computes w nr [.addroundkey r] fun b => addRoundKey b w r :=
  .of_setS fun s hv hw hnr => by
    subst hw hnr
    exact exec_addroundkey_adds hv hr hn

theorem Computes.encround {r : Nat} (hr : r ≤ nr.toNat) (hn : nr.toNat ≤ 14) :
    Computes w nr (encround r) (encryptRound w r) := by
  change Computes w nr _ ((((fun b => addRoundKey b w r) ∘ mixColumns) ∘ shiftRows) ∘ subBytes)
  exact .cons (.of_setS fun _ _ _ _ => rfl) <| .cons (.of_setS fun _ _ _ _ => rfl) <|
    .cons (.of_setSThroughT fun _ => rfl) (.addroundkey hr hn)

theorem Computes.decround {r : Nat} (hr : r ≤ nr.toNat) (hn : nr.toNat ≤ 14) :
    Computes w nr (decround r) (decryptRound w r) := by
  change Computes w nr _ (((invMixColumns ∘ fun b => addRoundKey b w r) ∘ invSubBytes) ∘ invShiftRows)
  exact .cons (.of_setS fun _ _ _ _ => rfl) <| .cons (.of_setS fun _ _ _ _ => rfl) <|
    .cons (.addroundkey hr hn) (.of_setSThroughT fun _ => rfl)

/-- R99, R160: the first key addition and `n` full rounds. -/
theorem Computes.encrounds {n : Nat} (h : n ≤ nr.toNat) (hn : nr.toNat ≤ 14) :
    Computes w nr (.addroundkey 0 :: (List.range n).flatMap fun k => Machine.encround (k + 1))
      fun b => encryptRounds w b n := by
  induction n with
  | zero => exact .addroundkey (Nat.zero_le _) hn
  | succ n ih =>
    rw [List.range_succ, List.flatMap_append, List.flatMap_singleton, ← List.cons_append]
    exact (ih (Nat.le_of_succ_le h)).append (.encround h hn)

/-- R99, R161: the first key addition and `n` full rounds, downwards. -/
theorem Computes.decrounds {n : Nat} (h : n ≤ nr.toNat) (hn : nr.toNat ≤ 14) :
    Computes w nr (.addroundkey nr.toNat :: (List.range n).flatMap fun k => Machine.decround (nr.toNat - 1 - k))
      fun b => decryptRounds w nr.toNat b n := by
  induction n with
  | zero => exact .addroundkey le_rfl hn
  | succ n ih =>
    have hround : nr.toNat - 1 - n = nr.toNat - (n + 1) := by omega
    rw [List.range_succ, List.flatMap_append, List.flatMap_singleton, ← List.cons_append, hround]
    exact (ih (Nat.le_of_succ_le h)).append (.decround (Nat.sub_le _ _) hn)

theorem Computes.encblkSteps (hn : nr.toNat ≤ 14) :
    Computes w nr (encblkSteps nr.toNat) fun b => encryptState b w nr.toNat :=
  (Computes.encrounds (Nat.sub_le _ _) hn).append <|
    .cons (.of_setS (f := subBytes) fun _ _ _ _ => rfl) <| .cons (.of_setS (f := shiftRows) fun _ _ _ _ => rfl) <|
      .addroundkey le_rfl hn

theorem Computes.decblkSteps (hn : nr.toNat ≤ 14) :
    Computes w nr (decblkSteps nr.toNat) fun b => decryptState b w nr.toNat :=
  (Computes.decrounds (Nat.sub_le _ _) hn).append <|
    .cons (.of_setS (f := invShiftRows) fun _ _ _ _ => rfl) <| .cons (.of_setS (f := invSubBytes) fun _ _ _ _ => rfl) <|
      .addroundkey (Nat.zero_le _) hn

end

/-- R165: four commands for each round, the last one without a column transform, and the first key addition. -/
theorem length_encblkSteps {nr : Nat} (hnr : 1 ≤ nr) : (encblkSteps nr).length = 4 * nr := by
  simp [encblkSteps, encround, List.length_flatMap]
  omega

theorem length_decblkSteps {nr : Nat} (hnr : 1 ≤ nr) : (decblkSteps nr).length = 4 * nr := by
  simp [decblkSteps, decround, List.length_flatMap]
  omega

/-- Settles O23: each primitive command computes one factor of the block function that the block command applies. -/
theorem primitiveStepsEqualTheBlockCommands : Obligations.PrimitiveStepsEqualTheBlockCommands := by
  unfold Obligations.PrimitiveStepsEqualTheBlockCommands
  intro s hw hnr herr
  have hrounds : 1 ≤ s.NR.toNat ∧ s.NR.toNat ≤ 14 := by
    rcases hnr with h | h | h <;> simp [h]
  obtain ⟨h1, h14⟩ := hrounds
  refine ⟨length_encblkSteps h1, length_decblkSteps h1, ?_, ?_⟩
  · obtain ⟨t, ht, hS, -, -, -, he⟩ := Computes.encblkSteps h14 s hw rfl rfl
    obtain ⟨u, hu, hS', -⟩ := blockCommand_held_key .encrypt hw h14
    exact ⟨t, u, ht, hu, hS.trans hS'.symm, he.trans herr⟩
  · obtain ⟨t, ht, hS, -, -, -, he⟩ := Computes.decblkSteps h14 s hw rfl rfl
    obtain ⟨u, hu, hS', -⟩ := blockCommand_held_key .decrypt hw h14
    exact ⟨t, u, ht, hu, hS.trans hS'.symm, he.trans herr⟩

end Sys2Proof.Machine

/-! What two commands one after the other restore: `PAD` then `UNPAD`, `LDBLK` then `STBLK`, `STREAMENC` then
`STREAMDEC`: spec/44_padding.md rule R174, spec/45_stream_driver.md rules R180 to R183 and R192. -/

namespace Sys2Proof.Machine

/-! ### `PAD` then `UNPAD` -/

theorem toNat_padByte (l : Nat) : (BitVec.ofNat 8 (padLen l)).toNat = padLen l := by
  have := padLen_le l
  rw [BitVec.toNat_ofNat]
  omega

theorem paddedByte_of_le {s : State} {a : Nat} (h : s.LEN.toNat ≤ a) :
    paddedByte s a = BitVec.ofNat 8 (padLen s.LEN.toNat) :=
  if_neg (Nat.not_lt.mpr h)

theorem paddedByte_of_lt {s : State} {a : Nat} (h : a < s.LEN.toNat) : paddedByte s a = s.BUF.read a := if_pos h

section
variable {s : State} {byte : Nat → Byte} (hbyte : ∀ a < s.LEN.toNat + padLen s.LEN.toNat, byte a = paddedByte s a)
include hbyte

/-- R171: every byte of the pad, the last one included, is the pad length. -/
theorem last_pad_byte {i : Nat} (hi : i < padLen s.LEN.toNat) :
    byte (s.LEN.toNat + padLen s.LEN.toNat - 1 - i) = BitVec.ofNat 8 (padLen s.LEN.toNat) :=
  (hbyte _ (by omega)).trans (paddedByte_of_le (by omega))

/-- R174: a buffer that reads as the padded one ends in a valid trailer, which counts the pad. -/
theorem validPad_of_padded : validPad byte (s.LEN.toNat + padLen s.LEN.toNat) ∧
    (byte (s.LEN.toNat + padLen s.LEN.toNat - 1)).toNat = padLen s.LEN.toNat := by
  have hpos := padLen_pos s.LEN.toNat
  have hlast : byte (s.LEN.toNat + padLen s.LEN.toNat - 1) = BitVec.ofNat 8 (padLen s.LEN.toNat) :=
    last_pad_byte hbyte hpos
  have hcount : (byte (s.LEN.toNat + padLen s.LEN.toNat - 1)).toNat = padLen s.LEN.toNat := by
    rw [hlast, toNat_padByte]
  refine ⟨⟨by omega, padLen_whole _, ?_, ?_, ?_⟩, hcount⟩
  · rw [hcount]; exact hpos
  · rw [hcount]; exact padLen_le _
  · intro i hi
    rw [hlast]
    exact last_pad_byte hbyte (hcount ▸ hi)

end

/-- R174 (a): on a buffer that reads as the padded one, taking the trailer off restores the length. -/
theorem unpadBuffer_LEN_of_padded {s t : State} (hlen : t.LEN.toNat = s.LEN.toNat + padLen s.LEN.toNat)
    (hbyte : ∀ a < s.LEN.toNat + padLen s.LEN.toNat, t.BUF.read a = paddedByte s a) : (unpadBuffer t).LEN = s.LEN := by
  apply BitVec.eq_of_toNat_eq
  rw [unpadBuffer_LEN_toNat, hlen, (validPad_of_padded hbyte).2, Nat.add_sub_cancel]

/-- Settles O26: the pad is a valid trailer, and its last byte is its length. -/
theorem unpadUndoesPad : Obligations.UnpadUndoesPad := by
  unfold Obligations.UnpadUndoesPad
  intro s hroom
  have hfits : padFits s = true := padFits_iff.mpr hroom
  have hlen : (padBuffer s).LEN.toNat = s.LEN.toNat + padLen s.LEN.toNat := padBuffer_LEN_of_padFits hfits
  have hbyte (a : Nat) (ha : a < s.LEN.toNat + padLen s.LEN.toNat) : (padBuffer s).BUF.read a = paddedByte s a :=
    padBuffer_read_below ha
  have hpos := padLen_pos s.LEN.toNat
  have hle := padLen_le s.LEN.toNat
  have hcheck : unpadCheck (padBuffer s).BUF (padBuffer s).LEN.toNat = none :=
    unpadCheck_none.mpr (hlen ▸ (validPad_of_padded hbyte).1)
  have hunpad := exec_unpad_passes (s := complete (padBuffer (accept s))) (padBuffer_LEN_le_CAP hfits) hcheck
  refine ⟨_, _, exec_pad_fits hfits, hunpad, ?_, ?_, ?_, ?_, ?_, ?_, ?_⟩
  · exact hlen ▸ (by omega : s.LEN.toNat < s.LEN.toNat + padLen s.LEN.toNat)
  · exact hlen.trans_le (Nat.add_le_add_left hle _)
  · exact padBuffer_LEN_whole hfits
  · exact unpadBuffer_LEN_of_padded hlen hbyte
  · intro a ha
    simp only [complete_BUF, unpadBuffer_BUF, accept_BUF]
    exact padBuffer_read_outside (s := accept s) (.inl ha)
  · simp
  · simp

/-! ### `LDBLK` then `STBLK` -/

theorem toExternal_toInternal (b : Block) : toExternal (toInternal b) = b := transpose_transpose b

theorem toInternal_toExternal (b : Block) : toInternal (toExternal b) = b := transpose_transpose b

/-- Writing the block that stands at an index changes no byte. -/
theorem Memory.read_writeBlock_readBlock (m : Memory) (a x : Nat) :
    (m.writeBlock a (m.readBlock a)).read x = m.read x := by
  rw [Memory.read_writeBlock]
  split
  case isTrue h =>
    rw [Memory.getElem_readBlock]
    congr 1
    omega
  case isFalse => rfl

/-- Settles O29: the transposition undoes itself, so the store puts back the block that was loaded. -/
theorem loadThenStoreKeepsTheBuffer : Obligations.LoadThenStoreKeepsTheBuffer := by
  unfold Obligations.LoadThenStoreKeepsTheBuffer
  constructor
  · exact fun b => ⟨toExternal_toInternal b, toInternal_toExternal b⟩
  · intro s haligned hbelow hcap
    have hr : blockInRange s = true := blockInRange_iff.mpr ⟨haligned, hbelow⟩
    have hload := exec_ldblk_loads hr hcap
    have hr' : blockInRange (complete (loadBlock (accept s))) = true := by
      rw [blockInRange_iff]
      simpa using ⟨haligned, hbelow⟩
    have hstore := exec_stblk_stores (s := complete (loadBlock (accept s))) hr' (by simpa using hcap)
    refine ⟨complete (storeBlock (accept (complete (loadBlock (accept s))))), ?_, fun a => ?_⟩
    · rw [runCommands_cons hload, runCommands_cons hstore, runCommands]
    · simp [toExternal_toInternal, Memory.read_writeBlock_readBlock]

/-! ### `STREAMENC` then `STREAMDEC` -/

theorem blockOf_cryptedByte (d : Direction) (s : State) (byte : Nat → Byte) (n : Nat) :
    blockOf (cryptedByte d s byte) n = toExternal (cryptState d (toInternal (blockOf byte n))
      (loadWords s.W (expandKey s.KEY s.KLEN)) (nrOf s.KLEN)) := by
  apply Vector.ext
  intro i hi
  have hdiv : (16 * n + i) / 16 = n := by omega
  have hmod : (16 * n + i) % 16 = i := by omega
  simp only [blockOf, Vector.getElem_ofFn, cryptedByte, hdiv, hmod]

/-- R164 byte by byte: under the same key the block core's two directions cancel. -/
theorem cryptedByte_opposite (d : Direction) {s t : State} (hkey : t.KEY = s.KEY) (hklen : t.KLEN = s.KLEN)
    (hw : t.W = loadWords s.W (expandKey s.KEY s.KLEN)) (byte : Nat → Byte) (a : Nat) :
    cryptedByte d.opposite t (cryptedByte d s byte) a = byte a := by
  have hdiv : 16 * (a / 16) + a % 16 = a := Nat.div_add_mod a 16
  rw [cryptedByte]
  simp only [blockOf_cryptedByte, toInternal_toExternal, hkey, hklen, hw, loadWords_loadWords, cryptState_opposite,
    toExternal_toInternal]
  simp only [blockOf, Vector.getElem_ofFn, hdiv]

theorem complete_streamenc_LEN {s t : State} (hfits : padFits s = true)
    (ht : t = complete (emitResult (streamBlocks .encrypt (padBuffer (accept s))))) :
    t.LEN.toNat = s.LEN.toNat + padLen s.LEN.toNat := by
  subst ht
  simpa using padBuffer_LEN_of_padFits (s := accept s) hfits

/-- The buffer `STREAMENC` leaves, decrypted under the same key: the padded one again. -/
theorem streamBlocks_decrypt_encrypt_read {s t : State} (hk : keyLenValid s.KLEN = true) (hfits : padFits s = true)
    (ht : t = complete (emitResult (streamBlocks .encrypt (padBuffer (accept s))))) {a : Nat}
    (ha : a < s.LEN.toNat + padLen s.LEN.toNat) :
    (streamBlocks .decrypt (accept t)).BUF.read a = paddedByte s a := by
  have hlen : t.LEN.toNat = s.LEN.toNat + padLen s.LEN.toNat := complete_streamenc_LEN hfits ht
  have hkey : t.KEY = s.KEY := by subst ht; simp
  have hklen : t.KLEN = s.KLEN := by subst ht; simp
  have hw : t.W = loadWords s.W (expandKey s.KEY s.KLEN) := by subst ht; simp
  have hbyte (b : Nat) (hb : b < t.LEN.toNat) : t.BUF.read b = cryptedByte .encrypt s (paddedByte s) b := by
    rw [hlen] at hb
    subst ht
    exact streamBlocks_padBuffer_read_below hk hfits hb
  have hwhole : t.LEN.toNat % 16 = 0 := hlen ▸ padLen_whole _
  have ha' : a < t.LEN.toNat := hlen ▸ ha
  calc (streamBlocks .decrypt (accept t)).BUF.read a
    _ = cryptedByte .decrypt t t.BUF.read a := streamBlocks_accept_read_below (hklen ▸ hk) hwhole ha'
    _ = cryptedByte .decrypt t (cryptedByte .encrypt s (paddedByte s)) a := cryptedByte_congr hbyte hwhole ha'
    _ = paddedByte s a := cryptedByte_opposite .encrypt hkey hklen hw _ a

/-- Settles O33: the decrypted buffer reads as the padded one, whose trailer `UNPAD`'s check accepts. -/
theorem streamdecUndoesStreamenc : Obligations.StreamdecUndoesStreamenc := by
  unfold Obligations.StreamdecUndoesStreamenc
  intro s hvalid hroom
  have hk : keyLenValid s.KLEN = true := keyLenValid_iff.mpr hvalid
  have hfits : padFits s = true := padFits_iff.mpr hroom
  obtain ⟨t, ht⟩ : ∃ t, t = complete (emitResult (streamBlocks .encrypt (padBuffer (accept s)))) := ⟨_, rfl⟩
  have hlen : t.LEN.toNat = s.LEN.toNat + padLen s.LEN.toNat := complete_streamenc_LEN hfits ht
  have hklen : t.KLEN = s.KLEN := by subst ht; simp
  have hcapKept : t.CAP = s.CAP := by subst ht; simp
  have hcap : t.LEN.toNat ≤ t.CAP.toNat := by
    rw [hlen, hcapKept]
    exact hroom
  have herr : t.ERR = s.ERR := by subst ht; simp
  have hwhole : wholeBlocks t = true := wholeBlocks_iff.mpr (hlen ▸ padLen_whole _)
  have hdlen : (streamBlocks .decrypt (accept t)).LEN.toNat = s.LEN.toNat + padLen s.LEN.toNat := by
    rw [streamBlocks_LEN]; exact hlen
  have hbyte (a : Nat) (ha : a < s.LEN.toNat + padLen s.LEN.toNat) :
      (streamBlocks .decrypt (accept t)).BUF.read a = paddedByte s a :=
    streamBlocks_decrypt_encrypt_read hk hfits ht ha
  have hpad : validPad (streamBlocks .decrypt (accept t)).BUF.read (streamBlocks .decrypt (accept t)).LEN.toNat :=
    hdlen ▸ (validPad_of_padded hbyte).1
  refine ⟨t, _, ht ▸ exec_streamenc_encrypts hk hfits, exec_streamdec_decrypts (hklen ▸ hk) hwhole hcap, ?_, ?_, ?_,
    herr, ?_⟩
  all_goals rw [unpadOrFallback_of_validPad hpad]
  · exact unpadBuffer_LEN_of_padded hdlen hbyte
  · intro a ha
    simp only [complete_BUF, emitResult_BUF, unpadBuffer_BUF]
    rw [hbyte a (by omega), paddedByte_of_lt ha]
  · simp
  · simpa using herr

end Sys2Proof.Machine

/-! The events of the stream-class commands and the key they discard: spec/45_stream_driver.md rules R184 and R189,
spec/60_exceptions.md rule R218, spec/70_reset_and_hazards.md rule R245. -/

namespace Sys2Proof.Machine

/-! ### The progress points -/

/-- The positions at which a block loop over `total` bytes reports progress (R184). -/
def progressPoints (total : Nat) : List Word :=
  (List.range (total / 2048)).map (fun i => BitVec.ofNat 32 (2048 * (i + 1))) ++
    if total % 2048 ≠ 0 ∨ total = 0 then [BitVec.ofNat 32 total] else []

theorem progressEvents_eq_map (total : Nat) :
    progressEvents total = (progressPoints total).map fun p => .progress p (BitVec.ofNat 32 total) := by
  unfold progressEvents progressPoints
  rw [List.map_append, List.map_map]
  split <;> rfl

/-- A progress point is a multiple of the stride up to the total, or the total. -/
theorem mem_progressPoints {total : Nat} {p : Word} (hp : p ∈ progressPoints total) :
    (∃ i < total / 2048, p = BitVec.ofNat 32 (2048 * (i + 1))) ∨
      (p = BitVec.ofNat 32 total ∧ (total % 2048 ≠ 0 ∨ total = 0)) := by
  rcases List.mem_append.mp hp with hp | hp
  · obtain ⟨i, hi, rfl⟩ := List.mem_map.mp hp
    exact .inl ⟨i, List.mem_range.mp hi, rfl⟩
  · split at hp
    · next h => exact .inr ⟨List.mem_singleton.mp hp, h⟩
    · cases hp

section
variable {total : Nat} (htotal : total < 2 ^ 32)
include htotal

theorem toNat_stridePoint {i : Nat} (hi : i < total / 2048) :
    (BitVec.ofNat 32 (2048 * (i + 1))).toNat = 2048 * (i + 1) := by
  rw [BitVec.toNat_ofNat]
  omega

theorem toNat_total : (BitVec.ofNat 32 total).toNat = total := by
  rw [BitVec.toNat_ofNat]
  exact Nat.mod_eq_of_lt htotal

theorem progressPoints_multiple : ∀ p ∈ progressPoints total, p.toNat % 2048 = 0 ∨ p = BitVec.ofNat 32 total := by
  intro p hp
  rcases mem_progressPoints hp with ⟨i, hi, rfl⟩ | ⟨rfl, -⟩
  · rw [toNat_stridePoint htotal hi]
    exact .inl (Nat.mul_mod_right 2048 _)
  · exact .inr rfl

theorem progressPoints_pairwise : (progressPoints total).Pairwise fun p q => p.toNat < q.toNat := by
  unfold progressPoints
  rw [List.pairwise_append]
  refine ⟨?_, ?_, ?_⟩
  · rw [List.pairwise_map]
    refine List.pairwise_lt_range.imp_of_mem fun {i j} hi hj hij => ?_
    rw [toNat_stridePoint htotal (List.mem_range.mp hi), toNat_stridePoint htotal (List.mem_range.mp hj)]
    omega
  · split
    · exact List.pairwise_singleton _ _
    · exact .nil
  · intro p hp q hq
    obtain ⟨i, hi, rfl⟩ := List.mem_map.mp hp
    have hi := List.mem_range.mp hi
    split at hq
    · next h =>
      rw [List.mem_singleton.mp hq, toNat_stridePoint htotal hi, toNat_total htotal]
      omega
    · cases hq

/-- The last progress point is the total, and there is one. -/
theorem getLast?_progressPoints : (progressPoints total).getLast? = some (BitVec.ofNat 32 total) := by
  unfold progressPoints
  split
  case isTrue h => exact List.getLast?_concat
  case isFalse h =>
    obtain ⟨n, hn⟩ : ∃ n, total / 2048 = n + 1 := ⟨total / 2048 - 1, by omega⟩
    have htot : 2048 * (n + 1) = total := by omega
    rw [List.append_nil, hn, List.range_succ, List.map_append, List.map_singleton, List.getLast?_concat, htot]

end

/-! ### The event protocol -/

/-- What an accepted stream-class command appends: its progress points, then one terminal event (R184, R218). -/
def AppendsEvents (s t : State) : Prop :=
  ∃ ps : List Word,
    t.EV = s.EV ++ ps.map (fun p => Event.progress p t.TOTAL) ++
      [if t.ERR = 0 then .result t.LEN t.FALLBACK else .fault t.ERR] ∧
    ps.Pairwise (fun p q => p.toNat < q.toNat) ∧
    (∀ p ∈ ps, p.toNat % 2048 = 0 ∨ p = t.TOTAL) ∧
    (∀ p ∈ ps.getLast?, p = t.TOTAL) ∧
    (ps = [] ↔ t.ERR ≠ 0 ∨ s.PROGEN = false)

theorem appendsEvents_streamFaulted (s : State) {code : Nibble} (hcode : code ≠ 0) :
    AppendsEvents s (s.streamFaulted code) := by
  have herr : (s.streamFaulted code).ERR ≠ 0 := by rwa [State.streamFaulted_ERR]
  refine ⟨[], ?_, .nil, nofun, nofun, iff_of_true rfl (.inl herr)⟩
  rw [if_neg herr]
  simp

theorem appendsEvents_of_emittedProgress {s t : State} (herr : t.ERR = 0)
    (hev : t.EV = s.EV ++ emittedProgress s t.TOTAL.toNat ++ [.result t.LEN t.FALLBACK]) : AppendsEvents s t := by
  have htotal := t.TOTAL.isLt
  have hword : BitVec.ofNat 32 t.TOTAL.toNat = t.TOTAL := by simp
  cases hp : s.PROGEN with
  | false =>
    refine ⟨[], ?_, .nil, nofun, nofun, by simp [hp]⟩
    rw [hev, herr]
    simp [emittedProgress, hp]
  | true =>
    have hlast := getLast?_progressPoints htotal
    rw [hword] at hlast
    refine ⟨progressPoints t.TOTAL.toNat, ?_, progressPoints_pairwise htotal, ?_, ?_, ?_⟩
    · rw [hev, herr, if_pos rfl, emittedProgress, if_pos hp, progressEvents_eq_map, hword]
    · simpa only [hword] using progressPoints_multiple htotal
    · intro p hp
      rw [hlast] at hp
      exact (Option.some.inj hp).symm
    · have hne : progressPoints t.TOTAL.toNat ≠ [] := by
        intro h
        rw [h] at hlast
        cases hlast
      simp [hne, herr, hp]

/-- A command whose block loop ran in the state `r`, with its result emitted in the state `g`. -/
theorem appendsEvents_of_streamBlocks {s r g : State} {d : Direction} (hev : r.EV = s.EV)
    (hprogen : r.PROGEN = s.PROGEN) (hwhole : r.LEN.toNat % 16 = 0) (hgev : g.EV = (streamBlocks d r).EV)
    (hgtotal : g.TOTAL = r.LEN) (hgerr : g.ERR = 0) : AppendsEvents s (complete (emitResult g)) := by
  refine appendsEvents_of_emittedProgress hgerr ?_
  simp only [complete_EV, emitResult_EV, hgev, streamBlocks_EV d r hwhole, hev, complete_TOTAL, emitResult_TOTAL, hgtotal,
    complete_LEN, emitResult_LEN, complete_FALLBACK, emitResult_FALLBACK, emittedProgress, hprogen]

theorem Effect.appendsEvents {i : Instr} {s t : State} (h : Effect s i t) (hi : i.isStream = true) (herr : s.ERR = 0) :
    AppendsEvents s t := by
  cases h with
  | streamenc hk hp =>
    have hwhole : (padBuffer (accept s)).LEN.toNat % 16 = 0 := padBuffer_LEN_whole (s := accept s) hp
    exact appendsEvents_of_streamBlocks (by simp) (by simp) hwhole rfl (by simp) (by simpa using herr)
  | streamdec hk hb hl =>
    have hwhole : (accept s).LEN.toNat % 16 = 0 := wholeBlocks_iff.mp hb
    exact appendsEvents_of_streamBlocks (by simp) (by simp) hwhole (unpadOrFallback_EV _) (by simp) (by simpa using herr)
  | rawdec hk hb hl =>
    have hwhole : (accept s).LEN.toNat % 16 = 0 := wholeBlocks_iff.mp hb
    exact appendsEvents_of_streamBlocks (by simp) (by simp) hwhole rfl (by simp) (by simpa using herr)
  | streamencSize | streamencCapacity | streamdecSize | streamdecLength | rawdecSize | rawdecLength =>
    exact appendsEvents_streamFaulted s (by decide)
  | _ => cases hi

theorem Effect.EV_eq {i : Instr} {s t : State} (h : Effect s i t) (hi : i.isStream = false) (hr : i ≠ .sreset) :
    t.EV = s.EV := by
  cases h with
  | sreset => exact absurd rfl hr
  | streamenc | streamencSize | streamencCapacity | streamdec | streamdecSize | streamdecLength | rawdec | rawdecSize
  | rawdecLength => cases hi
  | _ => simp

/-- An illegal word and a dropped word append nothing. -/
theorem commandEntry_EV_eq {w : Word} {s t : State} (h : commandEntry w s = .next t)
    (hw : (∃ e, decode w = .error e) ∨ (s.ERR ≠ 0 ∧ w ≠ 0x000000F0 ∧ w ≠ 0x000000FF)) : t.EV = s.EV := by
  rcases commandEntry_cases h with rfl | ⟨-, hlatch, hcommand⟩
  · rfl
  · rcases hcommand with ⟨-, rfl⟩ | ⟨i, hi, -⟩
    · exact State.faulted_EV s 4
    · rcases hw with ⟨e, he⟩ | ⟨herr, h1, h2⟩
      · rw [he] at hi; cases hi
      · exact absurd hlatch (by tauto)

/-- Settles O34: the loop's events are its progress points, a raise has none, and the terminal event is the last. -/
theorem eventProtocol : Obligations.EventProtocol := by
  unfold Obligations.EventProtocol
  constructor
  · intro i s t hexec
    have heffect := exec_effect hexec
    refine ⟨heffect.appendsEvents, ?_, heffect.EV_eq⟩
    rintro rfl
    cases heffect
    rfl
  · exact fun w s t => commandEntry_EV_eq

/-! ### The discarded key -/

/-- What a stream-class command does to the key: it completes without one, or it raises and keeps it. -/
theorem Effect.stream_key {i : Instr} {s t : State} (h : Effect s i t) (hi : i.isStream = true) :
    (t.ERR = s.ERR ∧ t.WVALID = false) ∨ (t.ERR ≠ 0 ∧ t.W = s.W ∧ t.NR = s.NR ∧ t.WVALID = s.WVALID) := by
  cases h with
  | streamenc | streamdec | rawdec => exact .inl ⟨by simp, by simp⟩
  | streamencSize | streamencCapacity | streamdecSize | streamdecLength | rawdecSize | rawdecLength =>
    exact .inr ⟨by simp, by simp, by simp, by simp⟩
  | _ => cases hi

/-- Settles O36: with no key held each of the three commands raises `Fault(5)`. -/
theorem streamCommandsDiscardTheKey : Obligations.StreamCommandsDiscardTheKey := by
  unfold Obligations.StreamCommandsDiscardTheKey
  intro i s t hi herr hexec
  rcases (exec_effect hexec).stream_key hi with ⟨hkept, hkey⟩ | ⟨hraised, hkept⟩
  · exact ⟨fun _ => ⟨exec_blockCommand_noKey .encrypt hkey, exec_blockCommand_noKey .decrypt hkey,
      fun r => exec_addroundkey_noKey hkey⟩, fun hraised => absurd (hkept.trans herr) hraised⟩
  · exact ⟨fun hzero => absurd hzero hraised, fun _ => hkept⟩

end Sys2Proof.Machine

/-! The block-by-block sequence of the host against `RAWDEC`: spec/30_encoding.md rules R99 and R100. Each access of the
sequence is one step with an exact next state; the four steps of a block do to `BUF` what one pass of the loop does. -/

namespace Sys2Proof.Machine

/-! ### One step of the sequence -/

theorem step_issue {s u : State} {w : Word} {rest : List HostAccess} {i : Instr} (hp : s.pending = issue w :: rest)
    (hbusy : s.BUSY = false) (herr : s.ERR = 0) (hw : decode w = .ok i)
    (hexec : exec i { s with pending := rest } = .next u) :
    step s = .next { u with replies := u.replies ++ [.written] } := by
  rw [stepExecutesTheDecodedCommand s w rest i hp hbusy (.inl herr) hw, hexec]
  rfl

section
variable {s : State} {rest : List HostAccess} (hbusy : s.BUSY = false)
include hbusy

theorem step_writePos {v : Word} (hp : s.pending = .write32 0x00000014 v :: rest) :
    step s = .next { s with POS := v, pending := rest, replies := s.replies ++ [.written] } := by
  rw [step_cons hp, hostAccess, hostWrite32_register (s := { s with pending := rest }) hbusy (by decide)]
  rfl

variable (herr : s.ERR = 0)
include herr

theorem step_expandkey (hp : s.pending = issue 0x00000020 :: rest) (hk : keyLenValid s.KLEN = true) :
    step s = .next { s with
      W := loadWords s.W (expandKey s.KEY s.KLEN), NR := BitVec.ofNat 4 (nrOf s.KLEN), WVALID := true, BUSY := false,
      DONE := true, FALLBACK := false, pending := rest, replies := s.replies ++ [.written] } := by
  have hexec := exec_expandkey_valid (s := { s with pending := rest }) hk
  rw [complete_loadExpandedKey_frame] at hexec
  rw [step_issue hp hbusy herr rfl hexec]

theorem step_ldblk (hp : s.pending = issue 0x00000050 :: rest) (hr : blockInRange s = true)
    (hcap : s.LEN.toNat ≤ s.CAP.toNat) :
    step s = .next { s with
      S := toInternal (s.BUF.readBlock s.POS.toNat), BUSY := false, DONE := true, FALLBACK := false, pending := rest,
      replies := s.replies ++ [.written] } := by
  have hexec := exec_ldblk_loads (s := { s with pending := rest }) hr hcap
  rw [complete_loadBlock_frame, complete_S, loadBlock_S, accept_BUF, accept_POS] at hexec
  rw [step_issue hp hbusy herr rfl hexec]

theorem step_decblk (hp : s.pending = issue 0x00000031 :: rest) (hw : s.WVALID = true) (hn : s.NR.toNat ≤ 14) :
    step s = .next { s with
      S := cryptState .decrypt s.S s.W s.NR.toNat, T := scratchAfter .decrypt s.T s.S s.W s.NR.toNat, BUSY := false,
      DONE := true, FALLBACK := false, pending := rest, replies := s.replies ++ [.written] } := by
  have hexec := exec_blockCommand_crypts .decrypt (s := { s with pending := rest }) hw hn
  rw [complete_cryptS_frame] at hexec
  rw [step_issue hp hbusy herr rfl hexec]

theorem step_stblk (hp : s.pending = issue 0x00000051 :: rest) (hr : blockInRange s = true)
    (hcap : s.LEN.toNat ≤ s.CAP.toNat) :
    step s = .next { s with
      BUF := s.BUF.writeBlock s.POS.toNat (toExternal s.S), BUSY := false, DONE := true, FALLBACK := false,
      pending := rest, replies := s.replies ++ [.written] } := by
  have hexec := exec_stblk_stores (s := { s with pending := rest }) hr hcap
  rw [complete_storeBlock_frame, complete_BUF, storeBlock_BUF, accept_BUF, accept_POS, accept_S] at hexec
  rw [step_issue hp hbusy herr rfl hexec]

end

/-! ### The sequence beside the loop -/

/-- The host's core `x`, idle and with a key, stands where the block loop stands in the state `y`: same buffer, same
key. -/
structure StandsAt (y x : State) : Prop where
  buf : x.BUF = y.BUF
  words : x.W = y.W
  rounds : x.NR = y.NR
  len : x.LEN = y.LEN
  cap : x.CAP = y.CAP
  held : x.WVALID = true
  busy : x.BUSY = false
  err : x.ERR = 0

theorem runSteps_succ {s t : State} (n : Nat) (h : step s = .next t) : runSteps (n + 1) s = runSteps n t := by
  rw [runSteps, h]

theorem exists_runSteps_succ {s t : State} {n : Nat} {p : State → Prop} (h : step s = .next t)
    (ht : ∃ u, runSteps n t = .next u ∧ p u) : ∃ u, runSteps (n + 1) s = .next u ∧ p u := by
  rwa [runSteps_succ n h]

theorem runSteps_add {m : Nat} (n : Nat) {s t : State} (h : runSteps m s = .next t) :
    runSteps (m + n) s = runSteps n t := by
  induction m generalizing s with
  | zero => cases h; rw [Nat.zero_add]
  | succ m ih =>
    rw [runSteps] at h
    rw [Nat.succ_add, runSteps]
    split at h
    · next u _ => exact ih h
    · cases h
    · cases h

/-- R99: `block n; ecbdec1` does what one pass of the loop at block `n` does. -/
theorem StandsAt.runSteps_block {y x : State} (h : StandsAt y x) {n : Nat} {rest : List HostAccess}
    (hp : x.pending = decryptBlockAccesses n ++ rest) (hpos : y.POS = BitVec.ofNat 32 (16 * n))
    (hlast : 16 * n + 16 ≤ y.LEN.toNat) (hcap : y.LEN.toNat ≤ y.CAP.toNat) (hn : y.NR.toNat ≤ 14) :
    ∃ t, runSteps 4 x = .next t ∧ t.pending = rest ∧ StandsAt (processBlock .decrypt y) t := by
  obtain ⟨hbuf, hwords, hrounds, hlen, hcap', hheld, hbusy, herr⟩ := h
  have hlt := y.LEN.isLt
  have hnat : (BitVec.ofNat 32 (16 * n)).toNat = 16 * n := by
    rw [BitVec.toNat_ofNat]
    omega
  have hrange (z : State) (hz : z.POS = BitVec.ofNat 32 (16 * n)) (hzlen : z.LEN = x.LEN) : blockInRange z = true := by
    rw [blockInRange_iff, hz, hzlen, hlen, hnat]
    omega
  have hxcap : x.LEN.toNat ≤ x.CAP.toNat := by rwa [hlen, hcap']
  have hxn : x.NR.toNat ≤ 14 := by rwa [hrounds]
  refine exists_runSteps_succ (step_writePos hbusy hp) ?_
  refine exists_runSteps_succ (step_ldblk hbusy herr rfl (hrange _ rfl rfl) hxcap) ?_
  refine exists_runSteps_succ (step_decblk rfl herr rfl hheld hxn) ?_
  refine exists_runSteps_succ (step_stblk rfl herr rfl (hrange _ rfl rfl) hxcap) ?_
  refine ⟨_, rfl, rfl, ?_, ?_, ?_, ?_, ?_, hheld, rfl, herr⟩
  · simp only [processBlock_BUF, cryptAt, hpos, hbuf, hwords, hrounds]
  · simpa using hwords
  · simpa using hrounds
  · simpa using hlen
  · simpa using hcap'

/-- The loop's position is the start of the block whose turn it is. -/
theorem processBlocks_POS_ofNat (d : Direction) {n : Nat} {y : State} (hpos : y.POS = 0) (h : 16 * n < 2 ^ 32) :
    (processBlocks d n y).POS = BitVec.ofNat 32 (16 * n) := by
  have hzero : y.POS.toNat = 0 := by rw [hpos]; rfl
  apply BitVec.eq_of_toNat_eq
  rw [processBlocks_POS d n y (by omega), hzero, BitVec.toNat_ofNat, Nat.zero_add, Nat.mod_eq_of_lt h]

theorem StandsAt.runSteps_blocks {y x : State} (h : StandsAt y x) {n : Nat} {rest : List HostAccess}
    (hp : x.pending = (List.range n).flatMap decryptBlockAccesses ++ rest) (hpos : y.POS = 0)
    (hlast : 16 * n ≤ y.LEN.toNat) (hcap : y.LEN.toNat ≤ y.CAP.toNat) (hn : y.NR.toNat ≤ 14) :
    ∃ t, runSteps (4 * n) x = .next t ∧ t.pending = rest ∧ StandsAt (processBlocks .decrypt n y) t := by
  induction n generalizing rest with
  | zero => exact ⟨x, rfl, hp, h⟩
  | succ n ih =>
    rw [List.range_succ, List.flatMap_append, List.flatMap_singleton, List.append_assoc] at hp
    obtain ⟨t, ht, htp, hstands⟩ := ih hp (by omega)
    have hlt := y.LEN.isLt
    have hstart := processBlocks_POS_ofNat .decrypt (n := n) hpos (by omega)
    rw [Nat.mul_succ, runSteps_add 4 ht, processBlocks_succ]
    exact hstands.runSteps_block htp hstart (by rwa [processBlocks_LEN]) (by simpa using hcap) (by simpa using hn)

theorem length_decryptByHand (n : Nat) : (decryptByHand n).length = 4 * n + 1 := by
  simp [decryptByHand, decryptBlockAccesses, List.length_flatMap]
  omega

theorem streamBlocks_BUF (d : Direction) (s : State) :
    (streamBlocks d s).BUF = (processBlocks d (s.LEN.toNat / 16) (startLoop (loadExpandedKey s))).BUF := by
  simp [streamBlocks, blockLoop]

/-- After `EXPANDKEY` the host's core stands where the loop of `RAWDEC` starts. -/
theorem exists_step_expandkey {s : State} (hbusy : s.BUSY = false) (herr : s.ERR = 0) (hk : keyLenValid s.KLEN = true)
    (rest : List HostAccess) :
    ∃ t, step { s with pending := issue 0x00000020 :: rest } = .next t ∧ t.pending = rest ∧
      StandsAt (startLoop (loadExpandedKey (accept s))) t :=
  ⟨_, step_expandkey (s := { s with pending := issue 0x00000020 :: rest }) hbusy herr rfl hk, rfl,
    ⟨by simp, by simp, by simp, by simp, by simp, rfl, rfl, herr⟩⟩

/-- Settles O35: after `EXPANDKEY` the host's core stands where the loop starts, and each block keeps them together. -/
theorem blockByBlockEqualsRawdec : Obligations.BlockByBlockEqualsRawdec := by
  unfold Obligations.BlockByBlockEqualsRawdec
  intro s hvalid hwhole hcap hbusy herr
  have hk : keyLenValid s.KLEN = true := keyLenValid_iff.mpr hvalid
  have hn : (startLoop (loadExpandedKey (accept s))).NR.toNat ≤ 14 := by
    have hfits := four_mul_nrOf_le hk
    simp only [startLoop_NR, loadExpandedKey_NR, accept_KLEN, toNat_nrOf hk]
    omega
  obtain ⟨x, hx, hpending, hstands⟩ := exists_step_expandkey hbusy herr hk
    ((List.range (s.LEN.toNat / 16)).flatMap decryptBlockAccesses)
  obtain ⟨t, ht, -, htstands⟩ := hstands.runSteps_blocks (rest := []) (by rwa [List.append_nil]) (startLoop_POS _)
    (by simp; omega) (by simpa using hcap) hn
  refine ⟨t, _, ?_, exec_rawdec_decrypts hk (wholeBlocks_iff.mpr hwhole) hcap, htstands.err, fun a => ?_⟩
  · rw [length_decryptByHand, decryptByHand, runSteps_succ _ hx, ht]
  · rw [htstands.buf, complete_BUF, emitResult_BUF, streamBlocks_BUF, accept_LEN]

end Sys2Proof.Machine

/-! Rules about every command at once: the codes it raises, the registers it writes, its flags, and the bytes of `BUF` it
keeps: spec/60_exceptions.md rule R211, spec/10_state.md rules R22 to R31, spec/20_memory.md rule R60,
spec/70_reset_and_hazards.md rule R249. -/

namespace Sys2Proof.Machine

/-! ### The codes a command raises -/

theorem unpadCheck_some {m : Memory} {l : Nat} {e : ErrorCode} (h : unpadCheck m l = some e) :
    e = .invalidLength ∨ e = .invalidPadding := by
  by_cases hl : l = 0 ∨ l % 16 ≠ 0
  · rw [unpadCheck_length hl] at h
    exact .inl (Option.some.inj h).symm
  · have hpad : ¬ validPad m.read l := fun hpad => nomatch (unpadCheck_none.mpr hpad).symm.trans h
    rw [unpadCheck_padding (by omega) (by omega) hpad] at h
    exact .inr (Option.some.inj h).symm

theorem Effect.ERR_mem_raisable {i : Instr} {s t : State} (h : Effect s i t) (herr : s.ERR = 0) :
    t.ERR = 0 ∨ t.ERR ∈ raisable i := by
  cases h with
  | unpadInvalid e hl hu =>
    right
    rcases unpadCheck_some hu with rfl | rfl <;> simp [raisable, ErrorCode.code]
  | addroundkeyNoKey | addroundkeyRange | expandkeySize | encblkNoKey | decblkNoKey | padCapacity | ldblkRange
  | stblkRange | streamencSize | streamencCapacity | streamdecSize | streamdecLength | rawdecSize | rawdecLength =>
    right
    simp [raisable]
  | clrerr | sreset => exact .inl rfl
  | _ =>
    left
    simpa using herr

/-- Some state that meets the invariants, with no error latched, in which the command raises the code. -/
def Raises (i : Instr) (code : Nibble) : Prop :=
  ∃ s t : State, s.Inv ∧ s.ERR = 0 ∧ exec i s = .next t ∧ t.ERR = code

/-- The reset state with a key length and a length written by the host. -/
def resetWith (klen : Byte) (len : Word) : State := { State.reset with KLEN := klen, LEN := len }

theorem inv_resetWith (klen : Byte) {len : Word} (hlen : len.toNat ≤ 8192) : (resetWith klen len).Inv :=
  { inv_reset with len := hlen }

/-- The reset state with an expanded key of 10 rounds, all zero. -/
def resetHolding : State := { State.reset with WVALID := true, NR := 10 }

theorem inv_resetHolding : resetHolding.Inv :=
  { inv_reset with held := fun _ => .inl rfl, notHeld := nofun }

theorem raises_of_faulted {i : Instr} {klen : Byte} {len : Word} {code : Nibble} (hlen : len.toNat ≤ 8192)
    (h : exec i (resetWith klen len) = .next ((resetWith klen len).faulted code)) : Raises i code :=
  ⟨_, _, inv_resetWith klen hlen, rfl, h, State.faulted_ERR _ code⟩

theorem raises_of_streamFaulted {i : Instr} {klen : Byte} {len : Word} {code : Nibble} (hlen : len.toNat ≤ 8192)
    (h : exec i (resetWith klen len) = .next ((resetWith klen len).streamFaulted code)) : Raises i code :=
  ⟨_, _, inv_resetWith klen hlen, rfl, h, State.streamFaulted_ERR _ code⟩

theorem raises_range_addroundkey {r : Nat} (hr : 10 < r) : Raises (.addroundkey r) 6 :=
  ⟨_, _, inv_resetHolding, rfl, exec_addroundkey_range (s := resetHolding) rfl hr, State.faulted_ERR _ 6⟩

/-- R211: the key length, the length and the held key that lead each command to each of its codes. -/
theorem raises_of_mem_raisable {i : Instr} {code : Nibble} (hcode : code ∈ raisable i)
    (hr : ∀ r, i = .addroundkey r → 10 < r ∨ code ≠ 6) : Raises i code := by
  cases i with
  | addroundkey r =>
    obtain rfl | rfl : code = 5 ∨ code = 6 := by simpa [raisable] using hcode
    · exact raises_of_faulted (klen := 0) (len := 0) (by decide) (exec_addroundkey_noKey rfl)
    · exact raises_range_addroundkey ((hr r rfl).resolve_right (by decide))
  | expandkey =>
    obtain rfl : code = 1 := by simpa [raisable] using hcode
    exact raises_of_faulted (klen := 0) (len := 0) (by decide) (exec_expandkey_invalid rfl)
  | encblk =>
    obtain rfl : code = 5 := by simpa [raisable] using hcode
    exact raises_of_faulted (klen := 0) (len := 0) (by decide) (exec_blockCommand_noKey .encrypt rfl)
  | decblk =>
    obtain rfl : code = 5 := by simpa [raisable] using hcode
    exact raises_of_faulted (klen := 0) (len := 0) (by decide) (exec_blockCommand_noKey .decrypt rfl)
  | pad =>
    obtain rfl : code = 7 := by simpa [raisable] using hcode
    exact raises_of_faulted (klen := 0) (len := 8192) (by decide) (exec_pad_overflows (by decide))
  | unpad =>
    obtain rfl | rfl : code = 2 ∨ code = 3 := by simpa [raisable] using hcode
    · exact raises_of_faulted (klen := 0) (len := 0) (by decide)
        (exec_unpad_raises (e := .invalidLength) (by decide) (by decide))
    · exact raises_of_faulted (klen := 0) (len := 16) (by decide)
        (exec_unpad_raises (e := .invalidPadding) (by decide) (by decide))
  | ldblk =>
    obtain rfl : code = 6 := by simpa [raisable] using hcode
    exact raises_of_faulted (klen := 0) (len := 0) (by decide) (exec_ldblk_outOfRange (by decide))
  | stblk =>
    obtain rfl : code = 6 := by simpa [raisable] using hcode
    exact raises_of_faulted (klen := 0) (len := 0) (by decide) (exec_stblk_outOfRange (by decide))
  | streamenc =>
    obtain rfl | rfl : code = 1 ∨ code = 7 := by simpa [raisable] using hcode
    · exact raises_of_streamFaulted (klen := 0) (len := 0) (by decide) (exec_stream_invalidKey rfl (by decide))
    · exact raises_of_streamFaulted (klen := 16) (len := 8192) (by decide)
        (exec_streamenc_overflows (by decide) (by decide))
  | streamdec =>
    obtain rfl | rfl : code = 1 ∨ code = 2 := by simpa [raisable] using hcode
    · exact raises_of_streamFaulted (klen := 0) (len := 0) (by decide) (exec_stream_invalidKey rfl (by decide))
    · exact raises_of_streamFaulted (klen := 16) (len := 1) (by decide)
        (exec_streamdec_partialBlock (by decide) (by decide))
  | rawdec =>
    obtain rfl | rfl : code = 1 ∨ code = 2 := by simpa [raisable] using hcode
    · exact raises_of_streamFaulted (klen := 0) (len := 0) (by decide) (exec_stream_invalidKey rfl (by decide))
    · exact raises_of_streamFaulted (klen := 16) (len := 1) (by decide)
        (exec_rawdec_partialBlock (by decide) (by decide))
  | _ => cases hcode

/-- Settles O42: the effects of a command raise the listed codes, and each code has a state that leads to it. -/
theorem codesEachCommandRaises : Obligations.CodesEachCommandRaises := by
  unfold Obligations.CodesEachCommandRaises
  exact ⟨fun i s t herr hexec => (exec_effect hexec).ERR_mem_raisable herr, fun i code => raises_of_mem_raisable⟩

/-! ### The registers a command writes -/

section
variable {i : Instr} {s t : State} (h : Effect s i t)
include h

theorem Effect.host_kept : t.CAP = s.CAP ∧ t.pending = s.pending ∧ t.replies = s.replies := by
  cases h with
  | _ => exact ⟨by simp, by simp, by simp⟩

theorem Effect.key_and_config_kept (hr : i ≠ .sreset) :
    t.KEY = s.KEY ∧ t.KLEN = s.KLEN ∧ t.PROGEN = s.PROGEN ∧ t.DIAG = s.DIAG := by
  cases h with
  | sreset => exact absurd rfl hr
  | _ => exact ⟨by simp, by simp, by simp, by simp⟩

theorem Effect.expandedKey_kept (hr : i ≠ .sreset) (hk : i ≠ .expandkey) (hi : i.isStream = false) :
    t.W = s.W ∧ t.NR = s.NR ∧ t.WVALID = s.WVALID := by
  cases h with
  | sreset => exact absurd rfl hr
  | expandkey => exact absurd rfl hk
  | streamenc | streamdec | rawdec => cases hi
  | _ => exact ⟨by simp, by simp, by simp⟩

theorem Effect.GFRES_kept (hr : i ≠ .sreset) (hg : ∀ a b, i ≠ .gfmul a b) : t.GFRES = s.GFRES := by
  cases h with
  | sreset => exact absurd rfl hr
  | gfmul a b => exact absurd rfl (hg a b)
  | _ => simp

theorem Effect.stream_registers_kept (hr : i ≠ .sreset) (hi : i.isStream = false) :
    t.POS = s.POS ∧ t.TOTAL = s.TOTAL ∧ t.EV = s.EV := by
  refine ⟨?_, ?_, h.EV_eq hi hr⟩
  all_goals cases h with
    | sreset => exact absurd rfl hr
    | streamenc | streamdec | rawdec => cases hi
    | _ => simp

theorem Effect.LEN_kept (hr : i ≠ .sreset) (hp : i ≠ .pad) (hu : i ≠ .unpad) (hi : i.isStream = false) :
    t.LEN = s.LEN := by
  cases h with
  | sreset => exact absurd rfl hr
  | pad => exact absurd rfl hp
  | unpad => exact absurd rfl hu
  | streamenc | streamdec | rawdec => cases hi
  | _ => simp

theorem Effect.BUF_kept (hp : i ≠ .pad) (hb : i ≠ .stblk) (hi : i.isStream = false) : t.BUF = s.BUF := by
  cases h with
  | pad => exact absurd rfl hp
  | stblk => exact absurd rfl hb
  | streamenc | streamdec | rawdec => cases hi
  | _ => simp

end

/-- Settles O43: each clause is what the effects of the other commands keep. -/
theorem commandsWriteOnlyTheirRegisters : Obligations.CommandsWriteOnlyTheirRegisters := by
  unfold Obligations.CommandsWriteOnlyTheirRegisters
  intro i s t hexec
  have h := exec_effect hexec
  exact ⟨h.host_kept, h.key_and_config_kept, h.expandedKey_kept, h.GFRES_kept, h.stream_registers_kept, h.LEN_kept,
    h.BUF_kept⟩

/-! ### The common flags -/

theorem Effect.BUSY_eq {i : Instr} {s t : State} (h : Effect s i t) : t.BUSY = false := by
  cases h with
  | _ => simp

theorem Effect.DONE_iff {i : Instr} {s t : State} (h : Effect s i t) : t.DONE = true ↔ i ≠ .sreset := by
  cases h with
  | _ => simp

theorem Effect.eq_streamdec_of_FALLBACK {i : Instr} {s t : State} (h : Effect s i t) (hf : t.FALLBACK = true) :
    i = .streamdec := by
  cases h with
  | streamdec | streamdecSize | streamdecLength => rfl
  | _ => simp at hf

/-- Settles O44: acceptance clears `FALLBACK`, and completion or reset sets the two other flags. -/
theorem commonFlagsAfterACommand : Obligations.CommonFlagsAfterACommand := by
  unfold Obligations.CommonFlagsAfterACommand
  intro i s t hexec
  have h := exec_effect hexec
  exact ⟨h.BUSY_eq, h.DONE_iff, h.eq_streamdec_of_FALLBACK⟩

/-! ### The bytes a command keeps -/

theorem Effect.read_above {i : Instr} {s t : State} (h : Effect s i t) {a : Nat} (hs : s.LEN.toNat ≤ a)
    (ht : t.LEN.toNat ≤ a) : t.BUF.read a = s.BUF.read a := by
  cases h with
  | pad hp =>
    have hlen : (padBuffer (accept s)).LEN.toNat = s.LEN.toNat + padLen s.LEN.toNat := padBuffer_LEN_of_padFits hp
    exact padBuffer_read_outside (s := accept s) (.inr (hlen ▸ ht))
  | stblk hb hc =>
    have hend := (blockInRange_iff.mp hb).2
    rw [complete_BUF]
    exact storeBlock_read_outside (s := accept s) (.inr (hend.trans hs))
  | streamenc hk hp =>
    have hlen : (padBuffer (accept s)).LEN.toNat = s.LEN.toNat + padLen s.LEN.toNat := padBuffer_LEN_of_padFits hp
    simp only [complete_LEN, emitResult_LEN, streamBlocks_LEN] at ht
    exact streamBlocks_padBuffer_read_above hk hp (hlen ▸ ht)
  | streamdec hk hb hl =>
    simp only [complete_BUF, emitResult_BUF, unpadOrFallback_BUF]
    exact streamBlocks_accept_read_above hk (wholeBlocks_iff.mp hb) hs
  | rawdec hk hb hl => exact streamBlocks_accept_read_above hk (wholeBlocks_iff.mp hb) hs
  | _ => simp

theorem Effect.read_below {i : Instr} {s t : State} (h : Effect s i t) {a : Nat} (ha : a < s.LEN.toNat)
    (hb : i ≠ .stblk) (hi : i.isStream = false) : t.BUF.read a = s.BUF.read a := by
  by_cases hp : i = .pad
  · subst hp
    cases h with
    | pad => exact padBuffer_read_outside (s := accept s) (.inl ha)
    | padCapacity => rw [State.faulted_BUF]
  · rw [h.BUF_kept hp hb hi]

/-- Settles O45: a write lies below the new length, and but for the loop and `STBLK` from the old one on. -/
theorem bytesOutsideTheBufferAreKept : Obligations.BytesOutsideTheBufferAreKept := by
  unfold Obligations.BytesOutsideTheBufferAreKept
  intro i s t hexec a
  have h := exec_effect hexec
  exact ⟨h.read_above, h.read_below⟩

end Sys2Proof.Machine

/-! `CFG` selects events and nothing else: spec/60_exceptions.md rules R219 and R226. Every operation of a command
either ignores `PROGEN`, `DIAG` and `EV`, or writes `EV` alone; so a command run under another configuration ends in the
same state up to these fields. -/

namespace Sys2Proof.Machine

/-- The state with another configuration and other events. -/
def reconfigure (p d : Bool) (ev : List Event) (s : State) : State := { s with PROGEN := p, DIAG := d, EV := ev }

/-- An operation that keeps `PROGEN`, and that under another configuration and other events gives the same state up to
these; with the same `PROGEN` and the same events it gives the same events. -/
structure ConfigBlind (f : State → State) : Prop where
  keeps : ∀ s, (f s).PROGEN = s.PROGEN
  blind : ∀ p d ev s, ∃ ev', f (reconfigure p d ev s) = reconfigure p d ev' (f s) ∧
    (p = s.PROGEN → ev = s.EV → ev' = (f s).EV)

theorem ConfigBlind.comp {f g : State → State} (hf : ConfigBlind f) (hg : ConfigBlind g) :
    ConfigBlind fun s => f (g s) where
  keeps s := (hf.keeps _).trans (hg.keeps s)
  blind p d ev s := by
    obtain ⟨ev', hev', hsame⟩ := hg.blind p d ev s
    obtain ⟨ev'', hev'', hsame'⟩ := hf.blind p d ev' (g s)
    refine ⟨ev'', ?_, fun hp hev => hsame' (hp.trans (hg.keeps s).symm) (hsame hp hev)⟩
    rw [hev', hev'']

/-- An operation that neither reads nor writes the configuration and the events. -/
theorem ConfigBlind.of_comm {f : State → State} (hkeeps : ∀ s, (f s).PROGEN = s.PROGEN) (hev : ∀ s, (f s).EV = s.EV)
    (hcomm : ∀ p d ev s, f (reconfigure p d ev s) = reconfigure p d ev (f s)) : ConfigBlind f :=
  ⟨hkeeps, fun p d ev s => ⟨ev, hcomm p d ev s, fun _ h => h.trans (hev s).symm⟩⟩

/-- An operation that appends events chosen by `PROGEN` and by fields other than the configuration. -/
theorem ConfigBlind.of_append {f : State → State} (new : Bool → State → List Event)
    (hf : ∀ s, f s = { s with EV := s.EV ++ new s.PROGEN s })
    (hnew : ∀ p q d ev s, new p (reconfigure q d ev s) = new p s) : ConfigBlind f where
  keeps s := by rw [hf]
  blind p d ev s := by
    refine ⟨ev ++ new p s, ?_, fun hp hev => ?_⟩
    · rw [hf, hf, hnew]; rfl
    · rw [hf, hp, hev]

/-! ### The operations -/

theorem configBlind_accept : ConfigBlind accept := .of_comm accept_PROGEN accept_EV fun _ _ _ _ => rfl

theorem configBlind_complete : ConfigBlind complete := .of_comm complete_PROGEN complete_EV fun _ _ _ _ => rfl

theorem configBlind_padBuffer : ConfigBlind padBuffer := .of_comm padBuffer_PROGEN padBuffer_EV fun _ _ _ _ => rfl

theorem configBlind_loadExpandedKey : ConfigBlind loadExpandedKey :=
  .of_comm loadExpandedKey_PROGEN loadExpandedKey_EV fun _ _ _ _ => rfl

theorem configBlind_discardKey : ConfigBlind discardKey := .of_comm discardKey_PROGEN discardKey_EV fun _ _ _ _ => rfl

theorem configBlind_startLoop : ConfigBlind startLoop := .of_comm startLoop_PROGEN startLoop_EV fun _ _ _ _ => rfl

theorem configBlind_loadBlock : ConfigBlind loadBlock := .of_comm loadBlock_PROGEN loadBlock_EV fun _ _ _ _ => rfl

theorem configBlind_cryptS (d : Direction) : ConfigBlind (cryptS d) :=
  .of_comm (cryptS_PROGEN d) (cryptS_EV d) fun _ _ _ _ => rfl

theorem configBlind_storeBlock : ConfigBlind storeBlock := by
  refine .of_comm storeBlock_PROGEN storeBlock_EV fun p d ev s => ?_
  apply State.ext <;> simp [reconfigure]

theorem configBlind_advancePos : ConfigBlind advancePos := .of_comm advancePos_PROGEN advancePos_EV fun _ _ _ _ => rfl

theorem configBlind_unpadOrFallback : ConfigBlind unpadOrFallback := by
  refine .of_comm unpadOrFallback_PROGEN unpadOrFallback_EV fun p d ev s => ?_
  by_cases h : validPad s.BUF.read s.LEN.toNat
  · rw [unpadOrFallback_of_validPad h, unpadOrFallback_of_validPad (s := reconfigure p d ev s) h]
    rfl
  · rw [unpadOrFallback_of_not_validPad h, unpadOrFallback_of_not_validPad (s := reconfigure p d ev s) h]
    rfl

theorem configBlind_strideProgress : ConfigBlind strideProgress := by
  refine .of_append
    (fun p s => if p = true ∧ s.POS.toNat % Config.stride = 0 then [.progress s.POS s.TOTAL] else []) (fun s => ?_)
    (fun _ _ _ _ _ => rfl)
  rw [← strideProgress_EV]
  apply State.ext <;> simp

theorem configBlind_finalProgress : ConfigBlind finalProgress := by
  refine .of_append (fun p s => if p = true ∧ (s.TOTAL.toNat % Config.stride ≠ 0 ∨ s.TOTAL.toNat = 0) then
    [.progress s.TOTAL s.TOTAL] else []) (fun s => ?_) (fun _ _ _ _ _ => rfl)
  rw [← finalProgress_EV]
  apply State.ext <;> simp

theorem configBlind_emitResult : ConfigBlind emitResult :=
  .of_append (fun _ s => [.result s.LEN s.FALLBACK]) (fun _ => rfl) (fun _ _ _ _ _ => rfl)

theorem configBlind_processBlocks (d : Direction) (n : Nat) : ConfigBlind (processBlocks d n) := by
  have hblock : ConfigBlind (processBlock d) :=
    configBlind_strideProgress.comp <| configBlind_advancePos.comp <| configBlind_storeBlock.comp <|
      (configBlind_cryptS d).comp configBlind_loadBlock
  induction n with
  | zero => exact .of_comm (fun _ => rfl) (fun _ => rfl) fun _ _ _ _ => rfl
  | succ n ih => exact ih.comp hblock

/-- The loop runs `LEN / 16` passes, and `LEN` is not of the configuration. -/
theorem configBlind_blockLoop (d : Direction) : ConfigBlind (blockLoop d) where
  keeps := blockLoop_PROGEN d
  blind p q ev s := by
    have hpasses := configBlind_finalProgress.comp <|
      (configBlind_processBlocks d (s.LEN.toNat / 16)).comp configBlind_startLoop
    exact hpasses.blind p q ev s

theorem configBlind_streamBlocks (d : Direction) : ConfigBlind (streamBlocks d) :=
  configBlind_discardKey.comp <| (configBlind_blockLoop d).comp configBlind_loadExpandedKey

/-! ### The commands -/

theorem exists_blind_effect {f : State → State} (hf : ConfigBlind f) {i : Instr} {s : State} {p d : Bool}
    (h : Effect (reconfigure p d s.EV s) i (f (reconfigure p d s.EV s))) :
    ∃ u, Effect { s with PROGEN := p, DIAG := d } i u ∧
      u = { f s with PROGEN := u.PROGEN, DIAG := u.DIAG, EV := u.EV } ∧ (p = s.PROGEN → u.EV = (f s).EV) := by
  obtain ⟨ev, hev, hsame⟩ := hf.blind p d s.EV s
  rw [hev] at h
  exact ⟨_, h, rfl, fun hp => hsame hp rfl⟩

theorem Effect.exists_reconfigured {i : Instr} {s t : State} (h : Effect s i t) (p d : Bool) :
    ∃ u, Effect { s with PROGEN := p, DIAG := d } i u ∧
      u = { t with PROGEN := u.PROGEN, DIAG := u.DIAG, EV := u.EV } ∧ (p = s.PROGEN → u.EV = t.EV) := by
  cases h with
  | gfmul a b => exact ⟨_, .gfmul a b, rfl, fun _ => rfl⟩
  | subbytes => exact ⟨_, .subbytes, rfl, fun _ => rfl⟩
  | invsubbytes => exact ⟨_, .invsubbytes, rfl, fun _ => rfl⟩
  | shiftrows => exact ⟨_, .shiftrows, rfl, fun _ => rfl⟩
  | invshiftrows => exact ⟨_, .invshiftrows, rfl, fun _ => rfl⟩
  | mixcolumns => exact ⟨_, .mixcolumns, rfl, fun _ => rfl⟩
  | invmixcolumns => exact ⟨_, .invmixcolumns, rfl, fun _ => rfl⟩
  | addroundkey r hw hr hr' => exact ⟨_, .addroundkey r hw hr hr', rfl, fun _ => rfl⟩
  | addroundkeyNoKey r hw => exact ⟨_, .addroundkeyNoKey r hw, rfl, fun _ => rfl⟩
  | addroundkeyRange r hw hr => exact ⟨_, .addroundkeyRange r hw hr, rfl, fun _ => rfl⟩
  | expandkey hk => exact ⟨_, .expandkey hk, rfl, fun _ => rfl⟩
  | expandkeySize hk => exact ⟨_, .expandkeySize hk, rfl, fun _ => rfl⟩
  | encblk hw hn => exact ⟨_, .encblk hw hn, rfl, fun _ => rfl⟩
  | encblkNoKey hw => exact ⟨_, .encblkNoKey hw, rfl, fun _ => rfl⟩
  | decblk hw hn => exact ⟨_, .decblk hw hn, rfl, fun _ => rfl⟩
  | decblkNoKey hw => exact ⟨_, .decblkNoKey hw, rfl, fun _ => rfl⟩
  | pad hp => exact ⟨_, .pad hp, rfl, fun _ => rfl⟩
  | padCapacity hp => exact ⟨_, .padCapacity hp, rfl, fun _ => rfl⟩
  | unpad hl hu => exact ⟨_, .unpad hl hu, rfl, fun _ => rfl⟩
  | unpadInvalid e hl hu => exact ⟨_, .unpadInvalid e hl hu, rfl, fun _ => rfl⟩
  | ldblk hb hc => exact ⟨_, .ldblk hb hc, rfl, fun _ => rfl⟩
  | ldblkRange hb => exact ⟨_, .ldblkRange hb, rfl, fun _ => rfl⟩
  | stblk hb hc =>
    exact exists_blind_effect (configBlind_complete.comp <| configBlind_storeBlock.comp configBlind_accept) (.stblk hb hc)
  | stblkRange hb => exact ⟨_, .stblkRange hb, rfl, fun _ => rfl⟩
  | streamenc hk hp =>
    exact exists_blind_effect (configBlind_complete.comp <| configBlind_emitResult.comp <|
      (configBlind_streamBlocks .encrypt).comp <| configBlind_padBuffer.comp configBlind_accept) (.streamenc hk hp)
  | streamencSize hk => exact ⟨_, .streamencSize hk, rfl, fun _ => rfl⟩
  | streamencCapacity hk hp => exact ⟨_, .streamencCapacity hk hp, rfl, fun _ => rfl⟩
  | streamdec hk hb hl =>
    exact exists_blind_effect (configBlind_complete.comp <| configBlind_emitResult.comp <|
      configBlind_unpadOrFallback.comp <| (configBlind_streamBlocks .decrypt).comp configBlind_accept)
        (.streamdec hk hb hl)
  | streamdecSize hk => exact ⟨_, .streamdecSize hk, rfl, fun _ => rfl⟩
  | streamdecLength hk hb => exact ⟨_, .streamdecLength hk hb, rfl, fun _ => rfl⟩
  | rawdec hk hb hl =>
    exact exists_blind_effect (configBlind_complete.comp <| configBlind_emitResult.comp <|
      (configBlind_streamBlocks .decrypt).comp configBlind_accept) (.rawdec hk hb hl)
  | rawdecSize hk => exact ⟨_, .rawdecSize hk, rfl, fun _ => rfl⟩
  | rawdecLength hk hb => exact ⟨_, .rawdecLength hk hb, rfl, fun _ => rfl⟩
  | clrerr => exact ⟨_, .clrerr, rfl, fun _ => rfl⟩
  | sreset => exact ⟨_, .sreset, rfl, fun _ => rfl⟩

/-- Each effect is what the command does in a state that meets its conditions. -/
theorem Effect.exec_eq {i : Instr} {s t : State} (h : Effect s i t) : exec i s = .next t := by
  cases h with
  | addroundkey r hw hr hr' =>
    calc exec (.addroundkey r) s
      _ = guardW r (completed (setS (addRoundKey s.S s.W r) (accept s))) := by
        simp [exec, execAddroundkey, hw, Nat.not_lt.mpr hr]
      _ = _ := guardW_pass _ hr'
  | addroundkeyNoKey r hw => exact exec_addroundkey_noKey hw
  | addroundkeyRange r hw hr => exact exec_addroundkey_range hw hr
  | expandkey hk => exact exec_expandkey_valid hk
  | expandkeySize hk => exact exec_expandkey_invalid hk
  | encblk hw hn => exact exec_blockCommand_crypts .encrypt hw hn
  | encblkNoKey hw => exact exec_blockCommand_noKey .encrypt hw
  | decblk hw hn => exact exec_blockCommand_crypts .decrypt hw hn
  | decblkNoKey hw => exact exec_blockCommand_noKey .decrypt hw
  | pad hp => exact exec_pad_fits hp
  | padCapacity hp => exact exec_pad_overflows hp
  | unpad hl hu => exact exec_unpad_passes hl hu
  | unpadInvalid e hl hu => exact exec_unpad_raises hl hu
  | ldblk hb hc => exact (if_pos hb).trans (guardBuf_pass _ hc)
  | ldblkRange hb => exact exec_ldblk_outOfRange hb
  | stblk hb hc => exact (if_pos hb).trans (guardBuf_pass _ hc)
  | stblkRange hb => exact exec_stblk_outOfRange hb
  | streamenc hk hp => exact exec_streamenc_encrypts hk hp
  | streamencSize hk | streamdecSize hk | rawdecSize hk => exact exec_stream_invalidKey rfl hk
  | streamencCapacity hk hp => exact exec_streamenc_overflows hk hp
  | streamdec hk hb hl => exact exec_streamdec_decrypts hk hb hl
  | streamdecLength hk hb => exact exec_streamdec_partialBlock hk hb
  | rawdec hk hb hl => exact exec_rawdec_decrypts hk hb hl
  | rawdecLength hk hb => exact exec_rawdec_partialBlock hk hb
  | _ => rfl

/-- Settles O46: under the other configuration the command has the reconfigured effect, and that is what it executes. -/
theorem configurationOnlySelectsEvents : Obligations.ConfigurationOnlySelectsEvents := by
  unfold Obligations.ConfigurationOnlySelectsEvents
  intro i s t p d hexec
  obtain ⟨u, hu, hsame, hev⟩ := (exec_effect hexec).exists_reconfigured p d
  exact ⟨u, hu.exec_eq, hsame, hev⟩

end Sys2Proof.Machine

/-! Reset, and the host's accesses one by one: spec/46_system.md rule R201, spec/10_state.md rules R32 to R37 and R59,
spec/20_memory.md rules R68, R70 and R73, spec/70_reset_and_hazards.md rules R240 and R241. -/

namespace Sys2Proof.Machine

/-! ### Reset -/

/-- Settles O38: the command ends in the power-up state around the old `BUF`. -/
theorem sresetCommand : Obligations.SresetCommand := by
  unfold Obligations.SresetCommand
  intro s
  exact ⟨softReset s, rfl, by simp, by simp, rfl⟩

theorem powerUp_S (cap : Word) (buf : Memory) (j : Fin 16) : (State.powerUp cap buf).S[j] = 0 :=
  Vector.getElem_replicate _

theorem powerUp_KEY (cap : Word) (buf : Memory) (i : Fin 32) : (State.powerUp cap buf).KEY[i] = 0 :=
  Vector.getElem_replicate _

/-- Settles O39: the power-up state, field by field. -/
theorem powerUpState : Obligations.PowerUpState := by
  unfold Obligations.PowerUpState
  exact fun cap buf => ⟨powerUp_S cap buf, powerUp_KEY cap buf, rfl⟩

/-- R241: the empty buffer takes a pad of 16 bytes in every core. -/
theorem exec_pad_powerUp {cap : Word} (buf : Memory) (hcap : validCap cap) :
    ∃ t, exec .pad (State.powerUp cap buf) = .next t ∧ t.LEN = 16 ∧ t.ERR = 0 ∧ ∀ a < 16, t.BUF.read a = 0x10 := by
  obtain ⟨-, hroom, -⟩ := hcap
  obtain ⟨t, ht, hlen, hpad, -, hframe⟩ := (padCommand (State.powerUp cap buf)).1 hroom
  refine ⟨t, ht, BitVec.eq_of_toNat_eq hlen, ?_, fun a ha => hpad a (Nat.zero_le a) (hlen ▸ ha)⟩
  rw [hframe]
  rfl

/-- Settles O40: no key, no data and an invalid key length decide each command's case. -/
theorem firstCommandsAfterReset : Obligations.FirstCommandsAfterReset := by
  unfold Obligations.FirstCommandsAfterReset
  intro cap buf s hcap hs
  have hw : s.WVALID = false := by rw [hs]; rfl
  have hk : keyLenValid s.KLEN = false := by rw [hs]; rfl
  have hpos : s.POS = 0 := by rw [hs]; rfl
  have hlen : s.LEN = 0 := by rw [hs]; rfl
  have hr : blockInRange s = false := by
    rw [blockInRange_false, hpos, hlen]
    exact .inr (by decide)
  have hcheck : unpadCheck s.BUF s.LEN.toNat = some .invalidLength := unpadCheck_length (.inl (by rw [hlen]; rfl))
  have hroom : s.LEN.toNat ≤ s.CAP.toNat := by rw [hlen]; exact Nat.zero_le _
  refine ⟨exec_expandkey_invalid hk, exec_stream_invalidKey rfl hk, exec_stream_invalidKey rfl hk,
    exec_stream_invalidKey rfl hk, exec_blockCommand_noKey .encrypt hw, exec_blockCommand_noKey .decrypt hw,
    fun r => exec_addroundkey_noKey hw, exec_ldblk_outOfRange hr, exec_stblk_outOfRange hr,
    exec_unpad_raises hroom hcheck, ?_, _, rfl, fun j => ?_⟩
  · rw [hs]
    exact exec_pad_powerUp buf hcap
  · have hzero : s.S[j] = 0 := by
      rw [hs]
      exact powerUp_S cap buf j
    have hlane : (subBytes s.S)[j] = sbox s.S[j] := getElem_subBytes s.S j j.isLt
    rw [complete_S, setS_S, hlane, hzero]
    decide

/-! ### `STATUS` and `CFG` -/

/-- R34, bit by bit: four flags, four zero bits, the error code, and zero above it. -/
theorem getLsbD_statusWord (s : State) (i : Nat) : (statusWord s).getLsbD i =
    if i = 0 then s.BUSY else if i = 1 then s.DONE else if i = 2 then s.WVALID else if i = 3 then s.FALLBACK
    else if i < 8 then false else s.ERR.getLsbD (i - 8) := by
  have hword : (statusWord s).getLsbD i = BitVec.getLsbD (w := 20 + 4 + 4 + 1 + 1 + 1 + 1)
      (0#20 ++ s.ERR ++ 0#4 ++ flagBit s.FALLBACK ++ flagBit s.WVALID ++ flagBit s.DONE ++ flagBit s.BUSY) i := rfl
  rw [hword]
  simp only [BitVec.getLsbD_append, flagBit]
  match i with
  | 0 | 1 | 2 | 3 => simp
  | i + 4 =>
    by_cases hzero : i < 4
    · simp [hzero, show i + 4 < 8 by omega]
    · by_cases herr : i < 8
      · simp [hzero, show i - 4 < 4 by omega, show ¬ i + 4 < 8 by omega]
      · have habove : s.ERR.getLsbD (i - 4) = false := BitVec.getLsbD_of_ge _ _ (by omega)
        simp [hzero, show ¬ i - 4 < 4 by omega, show ¬ i + 4 < 8 by omega, habove]

/-- Settles O47: each field is read off bit by bit. -/
theorem statusLayout : Obligations.StatusLayout := by
  unfold Obligations.StatusLayout
  intro s
  refine ⟨getLsbD_statusWord s 0, getLsbD_statusWord s 1, getLsbD_statusWord s 2, getLsbD_statusWord s 3, ?err, ?low,
    ?high⟩
  all_goals
    apply BitVec.eq_of_getLsbD_eq
    intro i hi
    rw [BitVec.getLsbD_extractLsb', getLsbD_statusWord]
  case err => simp [hi, show ¬ 8 + i = 1 by omega, show ¬ 8 + i = 2 by omega, show ¬ 8 + i = 3 by omega]
  case low =>
    simp [show ¬ 4 + i = 1 by omega, show ¬ 4 + i = 2 by omega, show ¬ 4 + i = 3 by omega, show 4 + i < 8 by omega]
  case high =>
    have habove : s.ERR.getLsbD (12 + i - 8) = false := BitVec.getLsbD_of_ge _ _ (by omega)
    simp [show ¬ 12 + i = 1 by omega, show ¬ 12 + i = 2 by omega, show ¬ 12 + i = 3 by omega,
      show ¬ 12 + i < 8 by omega, habove]

theorem toNat_cfgWord (s : State) : (cfgWord s).toNat = s.PROGEN.toNat + 2 * s.DIAG.toNat := by
  unfold cfgWord
  cases s.PROGEN <;> cases s.DIAG <;> rfl

/-! ### Reads and writes of registers -/

/-- The offset of a control register (R32). -/
def registerOffset : ControlRegister → Nat
  | .cmd => 0x00
  | .status => 0x04
  | .cfg => 0x08
  | .klen => 0x0C
  | .len => 0x10
  | .pos => 0x14
  | .total => 0x18
  | .nr => 0x1C
  | .gfres => 0x20
  | .cap => 0x24

theorem registerAt_some {off : Nat} {r : ControlRegister} (h : registerAt off = some r) : off = registerOffset r := by
  unfold registerAt at h
  split at h <;> cases h <;> rfl

theorem registerOffset_bounds (r : ControlRegister) : registerOffset r % 4 = 0 ∧ registerOffset r < 0x28 := by
  cases r <;> decide

/-- A misaligned address and one above the registers names none (R68). -/
theorem registerOf_eq_none {cap addr : Word} (h : addr.toNat % 4 ≠ 0 ∨ 0x28 ≤ addr.toNat) :
    registerOf cap addr = none := by
  cases hr : registerOf cap addr with
  | none => rfl
  | some r =>
    have haddr := registerAt_some (registerOf_some hr)
    have hbounds := registerOffset_bounds r
    omega

section
variable {s : State} {addr : Word} {r : ControlRegister}

theorem hostAccess_read32 (hr : registerOf s.CAP addr = some r) (hb : s.BUSY = false ∨ readableWhileBusy r = true) :
    hostAccess (.read32 addr) s = .next { s with replies := s.replies ++ [.word (readRegister s r)] } := by
  have hallowed : ¬ (s.BUSY = true ∧ readableWhileBusy r = false) := by
    rcases hb with hb | hb <;> simp [hb]
  rw [hostAccess, hostRead32, hr]
  simp only [if_neg hallowed]
  rfl

theorem hostAccess_read32_refused
    (h : ∀ r, registerOf s.CAP addr = some r → s.BUSY = true ∧ readableWhileBusy r = false) :
    hostAccess (.read32 addr) s = .next { s with replies := s.replies ++ [.busError] } := by
  rw [hostAccess, hostRead32]
  cases hr : registerOf s.CAP addr with
  | none => rfl
  | some r =>
    simp only [if_pos (h r hr)]
    rfl

variable {v : Word}

theorem hostAccess_write32 {t : State} (hb : s.BUSY = false) (hr : registerOf s.CAP addr = some r)
    (hw : writeRegister r v s = some t) :
    hostAccess (.write32 addr v) s = .next { t with replies := t.replies ++ [.written] } := by
  have haddr : addr ≠ 0x00000000 := by
    rintro rfl
    obtain rfl : ControlRegister.cmd = r := Option.some.inj hr
    cases hw
  rw [hostAccess, hostWrite32_register hb haddr, hr, Option.bind_some, hw]
  rfl

theorem hostAccess_write32_refused (haddr : addr ≠ 0x00000000)
    (hw : ∀ r, registerOf s.CAP addr = some r → writeRegister r v s = none) :
    hostAccess (.write32 addr v) s = .next { s with replies := s.replies ++ [.busError] } := by
  rcases Bool.eq_false_or_eq_true s.BUSY with hb | hb
  · exact hostWrite32_busy addr v hb
  · rw [hostAccess, hostWrite32_register hb haddr, Option.bind_eq_none_iff.mpr hw]
    rfl

end

/-- Settles O48: the address of each register, and what it reads as. -/
theorem registerReads : Obligations.RegisterReads := by
  unfold Obligations.RegisterReads
  intro s hb reads
  have hread {addr : Word} {r : ControlRegister} (hr : registerOf s.CAP addr = some r) : reads addr (readRegister s r) :=
    hostAccess_read32 hr (.inl hb)
  refine ⟨hread (r := .cmd) rfl, hread (r := .status) rfl, ⟨_, hread (r := .cfg) rfl, toNat_cfgWord s⟩,
    ⟨_, hread (r := .klen) rfl, ?_⟩, hread (r := .len) rfl, hread (r := .pos) rfl, hread (r := .total) rfl,
    ⟨_, hread (r := .nr) rfl, ?_⟩, ⟨_, hread (r := .gfres) rfl, ?_⟩, hread (r := .cap) rfl⟩
  · exact BitVec.toNat_setWidth_of_le (by decide)
  · exact BitVec.toNat_setWidth_of_le (by decide)
  · exact BitVec.toNat_setWidth_of_le (by decide)

/-- Settles O49: the address of each writable register, and what it stores. -/
theorem registerWrites : Obligations.RegisterWrites := by
  unfold Obligations.RegisterWrites
  intro s v hb
  refine ⟨hostAccess_write32 (r := .cfg) hb rfl rfl, ?_, fun hv => ?_, fun hv => ?_,
    hostAccess_write32 (r := .pos) hb rfl rfl⟩
  · have hlow : v.extractLsb' 0 8 = v.setWidth 8 := (BitVec.setWidth_eq_extractLsb' (by decide)).symm
    rw [hlow]
    exact hostAccess_write32 (r := .klen) hb rfl rfl
  · exact hostAccess_write32 (r := .len) hb rfl (if_pos hv)
  · refine hostAccess_write32_refused (by decide) fun r hr => ?_
    obtain rfl : ControlRegister.len = r := Option.some.inj hr
    exact if_neg (Nat.not_le.mpr hv)

/-! ### The byte windows -/

section
variable {s : State} (hb : s.BUSY = false) {addr : Word}
include hb

theorem hostAccess_read8_key {i : Fin 32} (ht : target s.CAP addr = .key i) :
    hostAccess (.read8 addr) s = .next { s with replies := s.replies ++ [.byte s.KEY[i]] } := by
  simp [hostAccess, hostRead8, hb, ht]

theorem hostAccess_read8_state {j : Fin 16} (ht : target s.CAP addr = .state j) :
    hostAccess (.read8 addr) s = .next { s with replies := s.replies ++ [.byte s.S[j]] } := by
  simp [hostAccess, hostRead8, hb, ht]

theorem hostAccess_read8_buffer {a : Nat} (ht : target s.CAP addr = .buffer a) :
    hostAccess (.read8 addr) s = .next { s with replies := s.replies ++ [.byte (s.BUF.read a)] } := by
  simp [hostAccess, hostRead8, hb, ht]

theorem hostAccess_read8_wb {n : Fin 240} (ht : target s.CAP addr = .wb n) :
    hostAccess (.read8 addr) s = .next { s with replies := s.replies ++ [readWb s n] } := by
  simp [hostAccess, hostRead8, hb, ht]

variable {v : Byte}

theorem hostAccess_write8_key {i : Fin 32} (ht : target s.CAP addr = .key i) :
    hostAccess (.write8 addr v) s = .next { s with KEY := s.KEY.set i v, replies := s.replies ++ [.written] } := by
  simp [hostAccess, hostWrite8, writeOutcome, hb, ht]

theorem hostAccess_write8_state {j : Fin 16} (ht : target s.CAP addr = .state j) :
    hostAccess (.write8 addr v) s = .next { s with S := s.S.set j v, replies := s.replies ++ [.written] } := by
  simp [hostAccess, hostWrite8, writeOutcome, hb, ht]

theorem hostAccess_write8_buffer {a : Nat} (ht : target s.CAP addr = .buffer a) :
    hostAccess (.write8 addr v) s = .next { s with BUF := s.BUF.write a v, replies := s.replies ++ [.written] } := by
  simp [hostAccess, hostWrite8, writeOutcome, hb, ht]

theorem hostAccess_write8_wb {n : Fin 240} (ht : target s.CAP addr = .wb n) :
    hostAccess (.write8 addr v) s = .next { s with replies := s.replies ++ [.busError] } := by
  simp [hostAccess, hostWrite8, writeOutcome, hb, ht]

end

/-- A write of one lane of a vector leaves every other lane alone. -/
theorem getElem_set_of_ne {n : Nat} (xs : Vector Byte n) (v : Byte) {i j : Fin n} (h : j ≠ i) :
    (xs.set i v)[j] = xs[j] :=
  Vector.getElem_set_ne i.isLt j.isLt fun hij => h (Fin.ext hij.symm)

/-- Settles O50: the window an address lies in, and the one byte of it that is read or written. -/
theorem windowAccesses : Obligations.WindowAccesses := by
  unfold Obligations.WindowAccesses
  intro s b hb hcap
  refine ⟨fun i => ?_, fun j => ?_, fun a ha => ?_⟩
  · have ht := target_key s.CAP i
    exact ⟨hostAccess_read8_key hb ht, _, hostAccess_write8_key hb ht, Vector.getElem_set_self i.isLt,
      fun j hj => getElem_set_of_ne s.KEY b hj, rfl⟩
  · have ht := target_state s.CAP j
    exact ⟨hostAccess_read8_state hb ht, _, hostAccess_write8_state hb ht, Vector.getElem_set_self j.isLt,
      fun k hk => getElem_set_of_ne s.S b hk, rfl⟩
  · have ht := target_ofNat_buffer s.CAP a ha hcap
    exact ⟨hostAccess_read8_buffer hb ht, _, hostAccess_write8_buffer hb ht, Memory.read_write_eq _ a b,
      fun x hx => Memory.read_write_ne _ a x b hx, rfl⟩

/-- Settles O51: the window's gate, and the byte of the word behind it. -/
theorem expandedKeyWindow : Obligations.ExpandedKeyWindow := by
  unfold Obligations.ExpandedKeyWindow
  intro s n b hb
  have ht := target_wb s.CAP n
  rw [hostAccess_read8_wb hb ht, readWb]
  refine ⟨fun hw hn => ?_, fun hclosed => ?_, hostAccess_write8_wb hb ht⟩
  · rw [if_pos ⟨hw, hn⟩, wByte_eq s.W _ _ (by omega) (by omega)]
  · have hgate : ¬ (s.WVALID = true ∧ n.val < 16 * (s.NR.toNat + 1)) := by
      rcases hclosed with hw | hn
      · simp [hw]
      · omega
    rw [if_neg hgate]

/-! ### Refused accesses -/

/-- Outside the windows an address names a register or nothing (R70). -/
theorem target_outside {cap addr : Word} (h : addr.toNat < 0x100 ∨ (0x130 ≤ addr.toNat ∧ addr.toNat < 0x200) ∨
    (0x2F0 ≤ addr.toNat ∧ addr.toNat < 0x10000) ∨ 0x10000 + cap.toNat ≤ addr.toNat) :
    (∃ off, target cap addr = .register off) ∨ target cap addr = .reserved := by
  by_cases hlow : addr.toNat < 0x40
  · exact .inl ⟨addr.toNat, if_pos hlow⟩
  · right
    unfold target
    simp only
    rw [if_neg hlow, dif_neg (by omega), dif_neg (by omega), dif_neg (by omega), if_neg (by omega)]

theorem hostAccess_byte_refused {s : State} {addr : Word}
    (h : s.BUSY = true ∨ (∃ off, target s.CAP addr = .register off) ∨ target s.CAP addr = .reserved) :
    hostAccess (.read8 addr) s = .next { s with replies := s.replies ++ [.busError] } ∧
      ∀ v, hostAccess (.write8 addr v) s = .next { s with replies := s.replies ++ [.busError] } := by
  rcases h with hb | ⟨off, ht⟩ | ht
  · simp [hostAccess, hostRead8, hostWrite8, writeOutcome, hb]
  · simp [hostAccess, hostRead8, hostWrite8, writeOutcome, ht]
  · simp [hostAccess, hostRead8, hostWrite8, writeOutcome, ht]

/-- Settles O52: each refused access, by its width, its register or its window. -/
theorem refusedAccessesChangeNothing : Obligations.RefusedAccessesChangeNothing := by
  unfold Obligations.RefusedAccessesChangeNothing
  intro s a h
  rcases h with ⟨bits, addr, rfl⟩ | ⟨addr, v, haccess, haddr⟩ | ⟨addr, v, rfl, haddr⟩ | ⟨addr, v, haccess, haddr⟩
  · rfl
  · have hnone := registerOf_eq_none (cap := s.CAP) haddr
    rcases haccess with rfl | rfl
    · exact hostAccess_read32_refused fun r hr => nomatch hnone.symm.trans hr
    · refine hostAccess_write32_refused ?_ fun r hr => nomatch hnone.symm.trans hr
      rintro rfl
      simp at haddr
  · refine hostAccess_write32_refused ?_ fun r hr => ?_
    · rintro rfl
      exact absurd haddr (by decide)
    · have hoff : addr.toNat = registerOffset r := registerAt_some (registerOf_some hr)
      have hmem : addr.toNat ∈ [0x04, 0x18, 0x1C, 0x20, 0x24] := List.mem_map_of_mem (f := BitVec.toNat) haddr
      rw [hoff] at hmem
      cases r with
      | cfg | klen | len | pos => exact absurd hmem (by decide)
      | _ => rfl
  · have hrefused := hostAccess_byte_refused (.inr (target_outside (cap := s.CAP) haddr))
    rcases haccess with rfl | rfl
    · exact hrefused.1
    · exact hrefused.2 v

/-- Settles O53: a busy core answers the reads of three registers, and no other access reaches it. -/
theorem accessesWhileBusy : Obligations.AccessesWhileBusy := by
  unfold Obligations.AccessesWhileBusy
  intro s a hb
  refine ⟨?_, ?_, ?_, fun hstatus hpos htotal => ?_, fun w => if_pos hb⟩
  · rintro rfl
    exact hostAccess_read32 (r := .status) rfl (.inr rfl)
  · rintro rfl
    exact hostAccess_read32 (r := .pos) rfl (.inr rfl)
  · rintro rfl
    exact hostAccess_read32 (r := .total) rfl (.inr rfl)
  · cases a with
    | read8 addr => exact (hostAccess_byte_refused (.inl hb)).1
    | write8 addr v => exact (hostAccess_byte_refused (.inl hb)).2 v
    | write32 addr v => exact hostWrite32_busy addr v hb
    | otherWidth => rfl
    | read32 addr =>
      refine hostAccess_read32_refused fun r hr => ⟨hb, ?_⟩
      have haddr : addr.toNat = registerOffset r := registerAt_some (registerOf_some hr)
      cases r with
      | status => exact absurd (congrArg _ (BitVec.eq_of_toNat_eq haddr)) hstatus
      | pos => exact absurd (congrArg _ (BitVec.eq_of_toNat_eq haddr)) hpos
      | total => exact absurd (congrArg _ (BitVec.eq_of_toNat_eq haddr)) htotal
      | _ => rfl

end Sys2Proof.Machine
